-- ==== Sys2Proof/Word.lean ====
section
/-! DEFINITION. The machine's words and word vectors (spec/00_scope.md R6, R10; spec/10_state.md R21 to R25). -/

namespace Sys2Proof

/-- An unsigned 32-bit word (R6, R10). -/
abbrev Word := BitVec 32

/-- A file of 8 words: a key, a message, a digest (R6, R21 to R25). `X[0]` is first (R10). -/
abbrev Words8 := Vector Word 8

/-- A digest of the hash primitive, 8 words (R6, R12). -/
abbrev Digest := Words8

/-- The 16-word input of one hash call (R6, R12). -/
abbrev Block := Vector Word 16

/-- An index of a word file, 0 to 7. -/
abbrev Index := Fin 8

/-- A byte offset in the register space (spec/20_memory.md R50). -/
abbrev Offset := BitVec 8

/-- A BUS transaction word T (spec/30_encoding.md R71). -/
abbrev BusWord := BitVec 41

/-- A SEQ event word E (spec/30_encoding.md R74). -/
abbrev SeqWord := BitVec 5

/-- A word file of zeros. -/
def zeros8 : Words8 := Vector.replicate 8 0#32

end Sys2Proof
end

