-- ==== Sys2Proof/Config.lean ====
section
/-! DEFINITION. What an implementation fixes, and the free values (spec/00_scope.md R6 to R8; spec/93_implementation_defined.md part 1). -/

namespace Sys2Proof.Config

/-- The inner pad word (spec/10_state.md R36). -/
def ipad : Word := 0x36363636#32

/-- The outer pad word (spec/10_state.md R36). -/
def opad : Word := 0x5c5c5c5c#32

/-- HASH_FN, the hash primitive's function: total and deterministic, nothing else is known of it
(R8, D33; item I1; log 4). -/
opaque hashFn : Block → Digest

/-- HASH_CAN_FAIL at its default (R8, D18; item I2; log 5). The clock edge takes it as an argument. -/
def hashCanFail : Bool := true

/-- BASE, the platform address of the register window (R8, D38; item I5; log 6). No step reads it: CORE decodes
the low 8 address bits only (spec/20_memory.md R58). -/
opaque base : Nat

/-- REF_KEY, the key of the source's reference vector (R8, D37; item I4; log 6). No step reads it. -/
opaque refKey : Words8

/-- The free draw of `hrsp_err` for a response that no scheduled input describes (R154; log 3). -/
opaque freeHashErr : Nat → Bool

/-- What `hrsp_digest` shows where no contract of the hash primitive says it: a capture with no block in flight
(items I9, I15; log 10). -/
opaque freeDigest : Nat → Digest

end Sys2Proof.Config
end

