-- ==== Sys2Proof/Syntax.lean ====
section
/-! DEFINITION. The instructions: one constructor for each row of spec/opcode_table.json, in the table's order
(spec/30_encoding.md R76, R77). -/

namespace Sys2Proof

/-- CORE's operations. BUS operations carry WR where the row leaves it open, ADDR or the word index where the row
leaves it open, and DATA where it is write data (R71, R72). SEQ operations carry the bits of S, HS and HE that the
row leaves open (R74, R77). -/
inductive Instr where
  | wrCtrl (data : Word)
  | rdCtrl
  | rdStatus
  | wrStatus (data : Word)
  | rdWmask
  | wrWmask (data : Word)
  | rdIpad
  | wrIpad (data : Word)
  | rdOpad
  | wrOpad (data : Word)
  | rdKey (i : Index)
  | wrKey (i : Index) (data : Word)
  | rdMsg (i : Index)
  | wrMsg (i : Index) (data : Word)
  | rdResult (i : Index)
  | wrResult (i : Index) (data : Word)
  | busReservedA (wr : Bool) (data : Word)
  | busReservedB (wr : Bool) (addr : Offset) (data : Word)
  | busReservedC (wr : Bool) (addr : Offset) (data : Word)
  | busMisalignedA (wr : Bool) (addr : Offset) (data : Word)
  | busMisalignedB (wr : Bool) (addr : Offset) (data : Word)
  | seqIdle (hs he : Bool)
  | seqInnerReqHold (he : Bool)
  | seqIssueInner (he : Bool)
  | seqInnerWaitHold (he : Bool)
  | seqCaptureInner
  | seqFailInner
  | seqOuterReqHold (he : Bool)
  | seqIssueOuter (he : Bool)
  | seqOuterWaitHold (he : Bool)
  | seqCaptureOuter
  | seqFailOuter
  | seqIllegalStateA (s1 : Bool) (hs he : Bool)
  | seqIllegalStateB (hs he : Bool)
  deriving DecidableEq, Repr

end Sys2Proof
end

