-- ==== Sys2Proof/WellFormed.lean ====
section
/-! DEFINITION. Which operands an encoding admits (spec/30_encoding.md R71, R76). -/

namespace Sys2Proof

/-- Read data is canonically 0: a read carries no write data (R71). -/
def readCarriesNoData (wr : Bool) (data : Word) : Bool := wr || decide (data = 0#32)

/-- ADDR of row BUS_RESERVED (b): 0x18 or 0x1C (R76). -/
def isReservedB (addr : Offset) : Bool := decide (addr = 0x18#8) || decide (addr = 0x1C#8)

/-- ADDR of row BUS_RESERVED (c): 0x80 to 0xFC, aligned (R76). -/
def isReservedC (addr : Offset) : Bool := addr.getLsbD 7 && !addr.getLsbD 1 && !addr.getLsbD 0

/-- ADDR of row BUS_MISALIGNED (a): ADDR[0] = 1 (R76). -/
def isMisalignedA (addr : Offset) : Bool := addr.getLsbD 0

/-- ADDR of row BUS_MISALIGNED (b): ADDR[1:0] = 0b10 (R76). -/
def isMisalignedB (addr : Offset) : Bool := addr.getLsbD 1 && !addr.getLsbD 0

/-- The operands are ones the instruction's row encodes. -/
def Instr.wellFormed : Instr → Bool
  | .wrCtrl _ => true
  | .rdCtrl => true
  | .rdStatus => true
  | .wrStatus _ => true
  | .rdWmask => true
  | .wrWmask _ => true
  | .rdIpad => true
  | .wrIpad _ => true
  | .rdOpad => true
  | .wrOpad _ => true
  | .rdKey _ => true
  | .wrKey _ _ => true
  | .rdMsg _ => true
  | .wrMsg _ _ => true
  | .rdResult _ => true
  | .wrResult _ _ => true
  | .busReservedA wr data => readCarriesNoData wr data
  | .busReservedB wr addr data => isReservedB addr && readCarriesNoData wr data
  | .busReservedC wr addr data => isReservedC addr && readCarriesNoData wr data
  | .busMisalignedA wr addr data => isMisalignedA addr && readCarriesNoData wr data
  | .busMisalignedB wr addr data => isMisalignedB addr && readCarriesNoData wr data
  | .seqIdle _ _ => true
  | .seqInnerReqHold _ => true
  | .seqIssueInner _ => true
  | .seqInnerWaitHold _ => true
  | .seqCaptureInner => true
  | .seqFailInner => true
  | .seqOuterReqHold _ => true
  | .seqIssueOuter _ => true
  | .seqOuterWaitHold _ => true
  | .seqCaptureOuter => true
  | .seqFailOuter => true
  | .seqIllegalStateA _ _ _ => true
  | .seqIllegalStateB _ _ => true

end Sys2Proof
end

