-- ==== Sys2Proof/Decode.lean ====
section
/-! DEFINITION. The decoder and the encoder of the two formats, and the match/mask tables they are held against
(spec/30_encoding.md). -/

namespace Sys2Proof

/-- An operation's word in its format (R70). -/
inductive OpWord where
  | bus (t : BusWord)
  | seq (e : SeqWord)
  deriving DecidableEq, Repr

/-- Why a number is no operation word. Every word of the right width is an operation (R75, R77, R79). -/
inductive DecodeError where
  /-- A BUS word has 41 bits (R80). -/
  | busWordTooWide
  /-- A SEQ word has 5 bits (R80). -/
  | seqWordTooWide
  deriving DecidableEq, Repr

/-! ### Fields -/

/-- T[40], WR (R71). -/
def busWr (t : BusWord) : Bool := t.getLsbD 40

/-- T[39:32], ADDR (R71). -/
def busAddr (t : BusWord) : Offset := t.extractLsb' 32 8

/-- T[31:0], DATA (R71). -/
def busData (t : BusWord) : Word := t.extractLsb' 0 32

/-- E[4:2], S (R74). -/
def seqS (e : SeqWord) : BitVec 3 := e.extractLsb' 2 3

/-- E[1], HS (R74). -/
def seqHs (e : SeqWord) : Bool := e.getLsbD 1

/-- E[0], HE (R74). -/
def seqHe (e : SeqWord) : Bool := e.getLsbD 0

/-- The word index of a window, `ADDR[4:2]` (R72). -/
def wordIndex (addr : Offset) : Index := ⟨(addr.extractLsb' 2 3).toNat, (addr.extractLsb' 2 3).isLt⟩

/-- `ADDR[7:5]`, which tells the windows apart: 1 KEY, 2 MSG, 3 RESULT (R76). -/
def windowOf (addr : Offset) : BitVec 3 := addr.extractLsb' 5 3

/-- `{WR, ADDR, DATA}` (R71). -/
def packBus (wr : Bool) (addr : Offset) (data : Word) : BusWord :=
  (BitVec.ofBool wr ++ addr ++ data).cast rfl

/-- `{S, HS, HE}` (R74). -/
def packSeq (s : BitVec 3) (hs he : Bool) : SeqWord :=
  (s ++ BitVec.ofBool hs ++ BitVec.ofBool he).cast rfl

/-- The write data an operation carries: a read's DATA bits are ignored (R71). -/
def carriedData (wr : Bool) (data : Word) : Word := if wr then data else 0#32

/-! ### Decoding -/

/-- Step (3) of R75: the pair (WR, ADDR) of an aligned offset with a register selects one row of R76. -/
def decodeRegister (wr : Bool) (addr : Offset) (data : Word) : Instr :=
  if addr = 0x00#8 then (if wr then .wrCtrl data else .rdCtrl)
  else if addr = 0x04#8 then (if wr then .wrStatus data else .rdStatus)
  else if addr = 0x08#8 then (if wr then .wrWmask data else .rdWmask)
  else if addr = 0x0C#8 then (if wr then .wrIpad data else .rdIpad)
  else if addr = 0x10#8 then (if wr then .wrOpad data else .rdOpad)
  else if windowOf addr = 1#3 then
    (if wr then .wrKey (wordIndex addr) data else .rdKey (wordIndex addr))
  else if windowOf addr = 2#3 then
    (if wr then .wrMsg (wordIndex addr) data else .rdMsg (wordIndex addr))
  else (if wr then .wrResult (wordIndex addr) data else .rdResult (wordIndex addr))

/-- The decode order of R75 on the fields of T. -/
def decodeFields (wr : Bool) (addr : Offset) (data : Word) : Instr :=
  if isMisalignedA addr then .busMisalignedA wr addr (carriedData wr data)
  else if isMisalignedB addr then .busMisalignedB wr addr (carriedData wr data)
  else if addr = 0x14#8 then .busReservedA wr (carriedData wr data)
  else if isReservedB addr then .busReservedB wr addr (carriedData wr data)
  else if isReservedC addr then .busReservedC wr addr (carriedData wr data)
  else decodeRegister wr addr data

/-- A BUS word's operation (R75). -/
def decodeBus (t : BusWord) : Instr := decodeFields (busWr t) (busAddr t) (busData t)

/-- The row of R77 that S, HS and HE select. -/
def decodeEvent (s : BitVec 3) (hs he : Bool) : Instr :=
  if s = 0#3 then .seqIdle hs he
  else if s = 1#3 then (if hs then .seqIssueInner he else .seqInnerReqHold he)
  else if s = 2#3 then
    (if hs then (if he then .seqFailInner else .seqCaptureInner) else .seqInnerWaitHold he)
  else if s = 3#3 then (if hs then .seqIssueOuter he else .seqOuterReqHold he)
  else if s = 4#3 then
    (if hs then (if he then .seqFailOuter else .seqCaptureOuter) else .seqOuterWaitHold he)
  else if s = 6#3 then .seqIllegalStateB hs he
  else .seqIllegalStateA (s.getLsbD 1) hs he

/-- A SEQ word's operation (R77). -/
def decodeSeq (e : SeqWord) : Instr := decodeEvent (seqS e) (seqHs e) (seqHe e)

/-- The decoder. Both formats are fully covered, so every operation word has an operation (R75, R77). -/
def decode : OpWord → Instr
  | .bus t => decodeBus t
  | .seq e => decodeSeq e

/-- The operation word that is the number `w`, or the name of what is wrong with it. A row of up to 8 bits is of
the SEQ format, a longer one of the BUS format (log 14). -/
def tableWord (nbits w : Nat) : Except DecodeError OpWord :=
  if nbits ≤ 8 then
    if w < 2 ^ 5 then .ok (.seq (BitVec.ofNat 5 w)) else .error .seqWordTooWide
  else
    if w < 2 ^ 41 then .ok (.bus (BitVec.ofNat 41 w)) else .error .busWordTooWide

/-- The operation the decoder reads from the table word `w` of `nbits` bits. -/
def decodeTableWord (nbits w : Nat) : Option Instr :=
  match tableWord nbits w with
  | .ok x => some (decode x)
  | .error _ => none

/-! ### Encoding -/

/-- Offset `0x20 + 4i`, KEY[i] (spec/20_memory.md R51). -/
def keyOffset (i : Index) : Offset := BitVec.ofNat 8 (0x20 + 4 * i.val)

/-- Offset `0x40 + 4i`, MSG[i] (spec/20_memory.md R51). -/
def msgOffset (i : Index) : Offset := BitVec.ofNat 8 (0x40 + 4 * i.val)

/-- Offset `0x60 + 4i`, RESULT[i] (spec/20_memory.md R51). -/
def resultOffset (i : Index) : Offset := BitVec.ofNat 8 (0x60 + 4 * i.val)

/-- The word of an operation: its row's fixed bits and its operands (R76, R77), read data canonically 0 (R71). -/
def encode : Instr → OpWord
  | .wrCtrl d => .bus (packBus true 0x00#8 d)
  | .rdCtrl => .bus (packBus false 0x00#8 0#32)
  | .rdStatus => .bus (packBus false 0x04#8 0#32)
  | .wrStatus d => .bus (packBus true 0x04#8 d)
  | .rdWmask => .bus (packBus false 0x08#8 0#32)
  | .wrWmask d => .bus (packBus true 0x08#8 d)
  | .rdIpad => .bus (packBus false 0x0C#8 0#32)
  | .wrIpad d => .bus (packBus true 0x0C#8 d)
  | .rdOpad => .bus (packBus false 0x10#8 0#32)
  | .wrOpad d => .bus (packBus true 0x10#8 d)
  | .rdKey i => .bus (packBus false (keyOffset i) 0#32)
  | .wrKey i d => .bus (packBus true (keyOffset i) d)
  | .rdMsg i => .bus (packBus false (msgOffset i) 0#32)
  | .wrMsg i d => .bus (packBus true (msgOffset i) d)
  | .rdResult i => .bus (packBus false (resultOffset i) 0#32)
  | .wrResult i d => .bus (packBus true (resultOffset i) d)
  | .busReservedA wr d => .bus (packBus wr 0x14#8 d)
  | .busReservedB wr a d => .bus (packBus wr a d)
  | .busReservedC wr a d => .bus (packBus wr a d)
  | .busMisalignedA wr a d => .bus (packBus wr a d)
  | .busMisalignedB wr a d => .bus (packBus wr a d)
  | .seqIdle hs he => .seq (packSeq 0#3 hs he)
  | .seqInnerReqHold he => .seq (packSeq 1#3 false he)
  | .seqIssueInner he => .seq (packSeq 1#3 true he)
  | .seqInnerWaitHold he => .seq (packSeq 2#3 false he)
  | .seqCaptureInner => .seq (packSeq 2#3 true false)
  | .seqFailInner => .seq (packSeq 2#3 true true)
  | .seqOuterReqHold he => .seq (packSeq 3#3 false he)
  | .seqIssueOuter he => .seq (packSeq 3#3 true he)
  | .seqOuterWaitHold he => .seq (packSeq 4#3 false he)
  | .seqCaptureOuter => .seq (packSeq 4#3 true false)
  | .seqFailOuter => .seq (packSeq 4#3 true true)
  | .seqIllegalStateA s1 hs he => .seq (packSeq (if s1 then 7#3 else 5#3) hs he)
  | .seqIllegalStateB hs he => .seq (packSeq 6#3 hs he)

/-- The operation is of the BUS format (R70). -/
def Instr.isBus (i : Instr) : Bool :=
  match encode i with
  | .bus _ => true
  | .seq _ => false

/-- A BUS word with the DATA bits of a read put to their canonical 0 (R71). -/
def canonicalBus (t : BusWord) : BusWord := packBus (busWr t) (busAddr t) (carriedData (busWr t) (busData t))

/-- An operation word in canonical form: only the DATA bits of a read are not kept as they are. -/
def OpWord.canonical : OpWord → OpWord
  | .bus t => .bus (canonicalBus t)
  | .seq e => .seq e

/-! ### The opcode table -/

/-- The mnemonic of spec/opcode_table.json. -/
def Instr.mnemonic : Instr → String
  | .wrCtrl _ => "WR_CTRL"
  | .rdCtrl => "RD_CTRL"
  | .rdStatus => "RD_STATUS"
  | .wrStatus _ => "WR_STATUS"
  | .rdWmask => "RD_WMASK"
  | .wrWmask _ => "WR_WMASK"
  | .rdIpad => "RD_IPAD"
  | .wrIpad _ => "WR_IPAD"
  | .rdOpad => "RD_OPAD"
  | .wrOpad _ => "WR_OPAD"
  | .rdKey _ => "RD_KEY"
  | .wrKey _ _ => "WR_KEY"
  | .rdMsg _ => "RD_MSG"
  | .wrMsg _ _ => "WR_MSG"
  | .rdResult _ => "RD_RESULT"
  | .wrResult _ _ => "WR_RESULT"
  | .busReservedA _ _ => "BUS_RESERVED__a"
  | .busReservedB _ _ _ => "BUS_RESERVED__b"
  | .busReservedC _ _ _ => "BUS_RESERVED__c"
  | .busMisalignedA _ _ _ => "BUS_MISALIGNED__a"
  | .busMisalignedB _ _ _ => "BUS_MISALIGNED__b"
  | .seqIdle _ _ => "SEQ_IDLE"
  | .seqInnerReqHold _ => "SEQ_INNER_REQ_HOLD"
  | .seqIssueInner _ => "SEQ_ISSUE_INNER"
  | .seqInnerWaitHold _ => "SEQ_INNER_WAIT_HOLD"
  | .seqCaptureInner => "SEQ_CAPTURE_INNER"
  | .seqFailInner => "SEQ_FAIL_INNER"
  | .seqOuterReqHold _ => "SEQ_OUTER_REQ_HOLD"
  | .seqIssueOuter _ => "SEQ_ISSUE_OUTER"
  | .seqOuterWaitHold _ => "SEQ_OUTER_WAIT_HOLD"
  | .seqCaptureOuter => "SEQ_CAPTURE_OUTER"
  | .seqFailOuter => "SEQ_FAIL_OUTER"
  | .seqIllegalStateA _ _ _ => "SEQ_ILLEGAL_STATE__a"
  | .seqIllegalStateB _ _ => "SEQ_ILLEGAL_STATE__b"

/-- A row of an opcode map: a word `x` is of the row exactly when `x AND mask = pattern` (R76, R77). -/
structure TableRow (n : Nat) where
  mnemonic : String
  pattern : BitVec n
  mask : BitVec n
  deriving DecidableEq, Repr

/-- The word is of the row. -/
def TableRow.holds {n : Nat} (r : TableRow n) (x : BitVec n) : Bool := decide (x &&& r.mask = r.pattern)

/-- The BUS opcode map, as R76 prints it. -/
def busTable : List (TableRow 41) :=
  [⟨"WR_CTRL", 0x10000000000#41, 0x1FF00000000#41⟩,
   ⟨"RD_CTRL", 0x00000000000#41, 0x1FF00000000#41⟩,
   ⟨"RD_STATUS", 0x00400000000#41, 0x1FF00000000#41⟩,
   ⟨"WR_STATUS", 0x10400000000#41, 0x1FF00000000#41⟩,
   ⟨"RD_WMASK", 0x00800000000#41, 0x1FF00000000#41⟩,
   ⟨"WR_WMASK", 0x10800000000#41, 0x1FF00000000#41⟩,
   ⟨"RD_IPAD", 0x00C00000000#41, 0x1FF00000000#41⟩,
   ⟨"WR_IPAD", 0x10C00000000#41, 0x1FF00000000#41⟩,
   ⟨"RD_OPAD", 0x01000000000#41, 0x1FF00000000#41⟩,
   ⟨"WR_OPAD", 0x11000000000#41, 0x1FF00000000#41⟩] ++
  [⟨"RD_KEY", 0x02000000000#41, 0x1E300000000#41⟩,
   ⟨"WR_KEY", 0x12000000000#41, 0x1E300000000#41⟩,
   ⟨"RD_MSG", 0x04000000000#41, 0x1E300000000#41⟩,
   ⟨"WR_MSG", 0x14000000000#41, 0x1E300000000#41⟩,
   ⟨"RD_RESULT", 0x06000000000#41, 0x1E300000000#41⟩,
   ⟨"WR_RESULT", 0x16000000000#41, 0x1E300000000#41⟩,
   ⟨"BUS_RESERVED__a", 0x01400000000#41, 0x0FF00000000#41⟩,
   ⟨"BUS_RESERVED__b", 0x01800000000#41, 0x0FB00000000#41⟩,
   ⟨"BUS_RESERVED__c", 0x08000000000#41, 0x08300000000#41⟩,
   ⟨"BUS_MISALIGNED__a", 0x00100000000#41, 0x00100000000#41⟩,
   ⟨"BUS_MISALIGNED__b", 0x00200000000#41, 0x00300000000#41⟩]

/-- The SEQ opcode map, as R77 prints it. -/
def seqTable : List (TableRow 5) :=
  [⟨"SEQ_IDLE", 0b00000#5, 0b11100#5⟩,
   ⟨"SEQ_INNER_REQ_HOLD", 0b00100#5, 0b11110#5⟩,
   ⟨"SEQ_ISSUE_INNER", 0b00110#5, 0b11110#5⟩,
   ⟨"SEQ_INNER_WAIT_HOLD", 0b01000#5, 0b11110#5⟩,
   ⟨"SEQ_CAPTURE_INNER", 0b01010#5, 0b11111#5⟩,
   ⟨"SEQ_FAIL_INNER", 0b01011#5, 0b11111#5⟩,
   ⟨"SEQ_OUTER_REQ_HOLD", 0b01100#5, 0b11110#5⟩,
   ⟨"SEQ_ISSUE_OUTER", 0b01110#5, 0b11110#5⟩,
   ⟨"SEQ_OUTER_WAIT_HOLD", 0b10000#5, 0b11110#5⟩,
   ⟨"SEQ_CAPTURE_OUTER", 0b10010#5, 0b11111#5⟩,
   ⟨"SEQ_FAIL_OUTER", 0b10011#5, 0b11111#5⟩,
   ⟨"SEQ_ILLEGAL_STATE__a", 0b10100#5, 0b10100#5⟩,
   ⟨"SEQ_ILLEGAL_STATE__b", 0b11000#5, 0b11100#5⟩]

/-- Some row of the opcode map of the word's format is named `name` and holds of it. -/
def OpWord.inRowNamed (x : OpWord) (name : String) : Bool :=
  match x with
  | .bus t => busTable.any (fun r => r.mnemonic == name && r.holds t)
  | .seq e => seqTable.any (fun r => r.mnemonic == name && r.holds e)

end Sys2Proof
end

