-- ==== Sys2Proof/Machine/Operands.lean ====
section
/-! DEFINITION. Operand forms: the command bits of CTRL write data, the offsets of the single registers, and where the
platform places an offset (spec/20_memory.md R51, R58; spec/30_encoding.md R73). -/

namespace Sys2Proof.Machine

/-- `START = DATA[0]` (R73). -/
def startBit (data : Word) : Bool := data.getLsbD 0

/-- `CLEAR = DATA[1]` (R73). -/
def clearBit (data : Word) : Bool := data.getLsbD 1

/-- A command is written: `cmd = DATA[1] or DATA[0]` (spec/40_bus_ops.md R101). -/
def isCommand (data : Word) : Bool := clearBit data || startBit data

/-- Offset of CTRL (R51). -/
def ctrlOffset : Offset := 0x00#8

/-- Offset of STATUS (R51). -/
def statusOffset : Offset := 0x04#8

/-- Offset of WMASK (R51). -/
def wmaskOffset : Offset := 0x08#8

/-- Offset of IPAD (R51). -/
def ipadOffset : Offset := 0x0C#8

/-- Offset of OPAD (R51). -/
def opadOffset : Offset := 0x10#8

/-- The platform address of an offset of the window at BASE (R50, R58). CORE itself sees the offset only. -/
def platformAddress (addr : Offset) : Nat := Config.base + addr.toNat

end Sys2Proof.Machine
end

