-- ==== Sys2Proof/Machine/State.lean ====
section
/-! DEFINITION. The machine's state, the reasons a step can stop, and the state after reset (spec/10_state.md). -/

namespace Sys2Proof.Machine

/-- SEQ (spec/10_state.md R28): the five named states, and the three unused codes of its 3 bits, which no reachable
state holds (spec/30_encoding.md R78; log 7). -/
inductive SeqState where
  | idle
  | innerReq
  | innerWait
  | outerReq
  | outerWait
  | unused5
  | unused6
  | unused7
  deriving DecidableEq, Repr

/-- CORE's complete state (spec/10_state.md R20). -/
structure Regs where
  /-- KEY[0..7] (R21) -/
  key : Words8
  /-- MSG[0..7] (R22) -/
  msg : Words8
  /-- D[0..7], the inner digest (R24) -/
  d : Words8
  /-- R[0..7], the MAC (R25) -/
  r : Words8
  /-- KWM, the key-written mask (R26) -/
  kwm : BitVec 8
  /-- MWM, the message-written mask (R27) -/
  mwm : BitVec 8
  /-- SEQ, the sequencer state (R28) -/
  seq : SeqState
  /-- DONE (R32) -/
  done : Bool
  /-- ERR (R33) -/
  err : Bool
  /-- ERR_CODE (R34) -/
  errCode : BitVec 4
  deriving DecidableEq, Repr

/-- The input pins in one clock cycle (spec/42_sequencer.md R150). `req` is the BUS word when `req_valid = 1`.
`hreqReady`, `hrspValid` and `hrspErr` are what the hash primitive offers to do in the cycle; its duties (R153) are
applied to them by the clock edge. `hrsp_digest` is no input: it is HASH_FN of the block in flight (R153(b)). -/
structure ClockCycle where
  rst : Bool
  req : Option BusWord
  hreqReady : Bool
  hrspValid : Bool
  hrspErr : Bool
  deriving DecidableEq, Repr

/-- The response of a transaction, `rsp_rdata` and `rsp_err` (spec/40_bus_ops.md R100). -/
structure Response where
  rdata : Word
  err : Bool
  deriving DecidableEq, Repr

/-- The state of the model: CORE, the hash primitive's block in flight, and the model's own fields. -/
structure State where
  /-- CORE's state (spec/10_state.md R20) -/
  regs : Regs
  /-- HP, the block the hash primitive has accepted and not answered (R41(b); spec/42_sequencer.md R153) -/
  hp : Option Block
  /-- The model's own: the input pins of the coming cycles, oldest first (log 1) -/
  env : List ClockCycle
  /-- The model's own: the index of the next free value (log 3) -/
  draws : Nat
  /-- The model's own: the response driven in the last cycle, if it held a transaction (log 12) -/
  rsp : Option Response
  deriving DecidableEq, Repr

/-- CORE has no traps (spec/60_exceptions.md R200; spec/93_implementation_defined.md part 1, `fault`): no step stops
the machine, so there is no fault. -/
inductive Fault where
  deriving DecidableEq, Repr

/-- Why an operation has no meaning. -/
inductive Refusal where
  /-- Raised by an arm of `exec` whose operation has no meaning yet; safe. No arm raises it. -/
  | notModelled (mnemonic : String)
  deriving DecidableEq, Repr

/-- The outcome of a meaning or a step. -/
abbrev Outcome := Host.Outcome State Fault Refusal

/-- CORE's registers after reset (spec/10_state.md R43). -/
def Regs.reset : Regs where
  key := zeros8
  msg := zeros8
  d := zeros8
  r := zeros8
  kwm := 0x00#8
  mwm := 0x00#8
  seq := .idle
  done := false
  err := false
  errCode := 0x0#4

/-- The machine right after reset: CORE as R43 says, no block in flight (spec/70_reset_and_hazards.md R233), no input
scheduled (log 1), no free value drawn (log 3), no response (log 12). -/
def State.reset : State where
  regs := Regs.reset
  hp := none
  env := []
  draws := 0
  rsp := none

end Sys2Proof.Machine
end

