-- ==== Sys2Proof/Machine/Flags.lean ====
section
/-! DEFINITION. The derived flags and the status words (spec/10_state.md R28, R30, R31, R38, R39). -/

namespace Sys2Proof.Machine

/-- SEQ's 3-bit code (R28). -/
def SeqState.code : SeqState → BitVec 3
  | .idle => 0b000#3
  | .innerReq => 0b001#3
  | .innerWait => 0b010#3
  | .outerReq => 0b011#3
  | .outerWait => 0b100#3
  | .unused5 => 0b101#3
  | .unused6 => 0b110#3
  | .unused7 => 0b111#3

/-- The SEQ state of a 3-bit code (R28). -/
def SeqState.ofCode (c : BitVec 3) : SeqState :=
  if c = 0b000#3 then .idle
  else if c = 0b001#3 then .innerReq
  else if c = 0b010#3 then .innerWait
  else if c = 0b011#3 then .outerReq
  else if c = 0b100#3 then .outerWait
  else if c = 0b101#3 then .unused5
  else if c = 0b110#3 then .unused6
  else .unused7

/-- The phase of a computation (R31). -/
inductive Phase where
  | inner
  | outer
  deriving DecidableEq, Repr

/-- The phase SEQ is in (R31); the unused codes have none (log 21). -/
def SeqState.phase : SeqState → Option Phase
  | .idle => none
  | .innerReq => some .inner
  | .innerWait => some .inner
  | .outerReq => some .outer
  | .outerWait => some .outer
  | .unused5 => none
  | .unused6 => none
  | .unused7 => none

/-- SEQ is INNER_REQ or OUTER_REQ. -/
def SeqState.isReq : SeqState → Bool
  | .idle => false
  | .innerReq => true
  | .innerWait => false
  | .outerReq => true
  | .outerWait => false
  | .unused5 => false
  | .unused6 => false
  | .unused7 => false

/-- SEQ is INNER_WAIT or OUTER_WAIT. -/
def SeqState.isWait : SeqState → Bool
  | .idle => false
  | .innerReq => false
  | .innerWait => true
  | .outerReq => false
  | .outerWait => true
  | .unused5 => false
  | .unused6 => false
  | .unused7 => false

/-- `BUSY = (SEQ != IDLE)` (R30). -/
def Regs.busy (r : Regs) : Bool := decide (r.seq ≠ .idle)

/-- All 8 key words have been written (R26). -/
def Regs.keyComplete (r : Regs) : Bool := decide (r.kwm = 0xFF#8)

/-- All 8 message words have been written (R27). -/
def Regs.msgComplete (r : Regs) : Bool := decide (r.mwm = 0xFF#8)

/-- `STATUS = zext_32({ERR_CODE, 0, SEQ, 0, ERR, DONE, BUSY})` (R38). -/
def Regs.statusWord (r : Regs) : Word :=
  (r.errCode ++ 0#1 ++ r.seq.code ++ 0#1 ++ BitVec.ofBool r.err ++ BitVec.ofBool r.done
    ++ BitVec.ofBool r.busy).setWidth 32

/-- `WMASK = zext_32({MWM, KWM})` (R39). -/
def Regs.wmaskWord (r : Regs) : Word := (r.mwm ++ r.kwm).setWidth 32

end Sys2Proof.Machine
end

