-- ==== Sys2Proof/Machine/Ops.lean ====
section
/-! DEFINITION. The operations the meanings share: answering a transaction, the two error channels, the writes of the
word files, the two commands, and the condition of a sequencer transition. -/

namespace Sys2Proof.Machine

/-! ### Responses and bus errors -/

/-- `respond(rdata, 0)` (spec/00_scope.md R11; spec/40_bus_ops.md R100). -/
def respond (rdata : Word) (s : State) : State :=
  { s with rsp := some { rdata := rdata, err := false } }

/-- `raise BusError(addr)`: rsp_err = 1, rsp_rdata = 0, no state of CORE changes, and the address is not recorded
(spec/60_exceptions.md R202). -/
def busError (_addr : Offset) (s : State) : State :=
  { s with rsp := some { rdata := 0#32, err := true } }

/-! ### Engine errors -/

/-- ERR_CODE 1, INVALID_KEY_LENGTH (spec/60_exceptions.md R203). -/
def invalidKeyLength : BitVec 4 := 0x1#4

/-- ERR_CODE 2, INVALID_MESSAGE_LENGTH (R203). -/
def invalidMessageLength : BitVec 4 := 0x2#4

/-- ERR_CODE 3, HASH_PRIMITIVE_FAILURE (R203). -/
def hashPrimitiveFailure : BitVec 4 := 0x3#4

/-- `raise EngineError(code)`, error entry: ERR <- 1, ERR_CODE <- code, SEQ <- IDLE (spec/60_exceptions.md R209). -/
def raiseEngineError (code : BitVec 4) (r : Regs) : Regs :=
  { r with err := true, errCode := code, seq := .idle }

/-- Leaving the error state, the return from an error: ERR <- 0, ERR_CODE <- 0 (spec/60_exceptions.md R210). -/
def leaveError (r : Regs) : Regs := { r with err := false, errCode := 0x0#4 }

/-! ### Word files -/

/-- `KEY[i] <- v; KWM[i] <- 1` (spec/40_bus_ops.md R114). -/
def writeKey (i : Index) (v : Word) (r : Regs) : Regs :=
  { r with key := r.key.set i.val v, kwm := r.kwm ||| (1#8 <<< i.val) }

/-- `MSG[i] <- v; MWM[i] <- 1` (spec/40_bus_ops.md R116). -/
def writeMsg (i : Index) (v : Word) (r : Regs) : Regs :=
  { r with msg := r.msg.set i.val v, mwm := r.mwm ||| (1#8 <<< i.val) }

/-! ### Commands -/

/-- CLEAR_ACTION: data, masks and flags to their reset values; SEQ is already IDLE (spec/40_bus_ops.md R103). -/
def clearAction (r : Regs) : Regs :=
  leaveError { r with key := zeros8, msg := zeros8, d := zeros8, r := zeros8, kwm := 0x00#8, mwm := 0x00#8, done := false }

/-- START_ACTION: the key check, then the message check, then the computation begins (spec/40_bus_ops.md R102;
spec/60_exceptions.md R207). -/
def startAction (r : Regs) : Regs :=
  if !r.keyComplete then raiseEngineError invalidKeyLength { r with done := false }
  else if !r.msgComplete then raiseEngineError invalidMessageLength { r with done := false }
  else { leaveError { r with done := false } with seq := .innerReq }

/-! ### Sequencer transitions -/

/-- The condition `S = want` of a transition: where it does not hold the transition is not taken and nothing changes
(spec/42_sequencer.md section 2, R170; log 8). -/
def whenSeq (want : SeqState) (f : State → State) (s : State) : State :=
  if s.regs.seq = want then f s else s

end Sys2Proof.Machine
end

