-- ==== Sys2Proof/Machine/ResultMux.lean ====
section
/-! DEFINITION. The result mux (spec/43_result_mux.md). -/

namespace Sys2Proof.Machine

/-- Write side: a digest goes to D in the inner phase and to R in the outer (R180). -/
def routeDigest (p : Phase) (digest : Digest) (r : Regs) : Regs :=
  match p with
  | .inner => { r with d := digest }
  | .outer => { r with r := digest }

/-- Read side: R[i] when DONE = 1, else 0 (R181). -/
def resultMux (i : Index) (r : Regs) : Word := if r.done then r.r[i] else 0#32

end Sys2Proof.Machine
end

