-- ==== Sys2Proof/Machine/Bus.lean ====
section
/-! DEFINITION. The meanings of the BUS operations (spec/40_bus_ops.md). Each reads the state at the start of the cycle and
leaves the response in `rsp` (R100). -/

namespace Sys2Proof.Machine

/-- A write that only an idle CORE takes: `if BUSY: raise BusError(addr) else ...; respond(0, 0)` (R114, R116). -/
def writeWhenIdle (addr : Offset) (f : Regs → Regs) (s : State) : State :=
  if s.regs.busy then busError addr s else respond 0#32 { s with regs := f s.regs }

/-! ### CTRL -/

/-- WR_CTRL (R101). -/
def execWrCtrl (data : Word) (s : State) : Outcome :=
  if s.regs.busy && isCommand data then .next (busError ctrlOffset s)
  else if s.regs.busy then .next (respond 0#32 s)
  else if clearBit data then .next (respond 0#32 { s with regs := clearAction s.regs })
  else if startBit data then .next (respond 0#32 { s with regs := startAction s.regs })
  else .next (respond 0#32 s)

/-- RD_CTRL (R104). -/
def execRdCtrl (s : State) : Outcome := .next (respond 0#32 s)

/-! ### STATUS, WMASK, IPAD, OPAD -/

/-- RD_STATUS (R105). -/
def execRdStatus (s : State) : Outcome := .next (respond s.regs.statusWord s)

/-- WR_STATUS (R106). -/
def execWrStatus (_data : Word) (s : State) : Outcome := .next (busError statusOffset s)

/-- RD_WMASK (R107). -/
def execRdWmask (s : State) : Outcome := .next (respond s.regs.wmaskWord s)

/-- WR_WMASK (R108). -/
def execWrWmask (_data : Word) (s : State) : Outcome := .next (busError wmaskOffset s)

/-- RD_IPAD (R109). -/
def execRdIpad (s : State) : Outcome := .next (respond Config.ipad s)

/-- WR_IPAD (R110). -/
def execWrIpad (_data : Word) (s : State) : Outcome := .next (busError ipadOffset s)

/-- RD_OPAD (R111). -/
def execRdOpad (s : State) : Outcome := .next (respond Config.opad s)

/-- WR_OPAD (R112). -/
def execWrOpad (_data : Word) (s : State) : Outcome := .next (busError opadOffset s)

/-! ### KEY, MSG, RESULT -/

/-- RD_KEY (R113): 0, whatever KEY[i] holds. -/
def execRdKey (_i : Index) (s : State) : Outcome := .next (respond 0#32 s)

/-- WR_KEY (R114). -/
def execWrKey (i : Index) (data : Word) (s : State) : Outcome :=
  .next (writeWhenIdle (keyOffset i) (writeKey i data) s)

/-- RD_MSG (R115). -/
def execRdMsg (i : Index) (s : State) : Outcome := .next (respond s.regs.msg[i] s)

/-- WR_MSG (R116). -/
def execWrMsg (i : Index) (data : Word) (s : State) : Outcome :=
  .next (writeWhenIdle (msgOffset i) (writeMsg i data) s)

/-- RD_RESULT (R117). -/
def execRdResult (i : Index) (s : State) : Outcome := .next (respond (resultMux i s.regs) s)

/-- WR_RESULT (R118). -/
def execWrResult (i : Index) (_data : Word) (s : State) : Outcome := .next (busError (resultOffset i) s)

/-! ### Reserved and misaligned -/

/-- BUS_RESERVED, offset 0x14 (R119). -/
def execBusReservedA (_wr : Bool) (_data : Word) (s : State) : Outcome := .next (busError 0x14#8 s)

/-- BUS_RESERVED, offsets 0x18 and 0x1C (R119). -/
def execBusReservedB (_wr : Bool) (addr : Offset) (_data : Word) (s : State) : Outcome := .next (busError addr s)

/-- BUS_RESERVED, offsets 0x80 to 0xFC (R119). -/
def execBusReservedC (_wr : Bool) (addr : Offset) (_data : Word) (s : State) : Outcome := .next (busError addr s)

/-- BUS_MISALIGNED, ADDR[0] = 1 (R120). -/
def execBusMisalignedA (_wr : Bool) (addr : Offset) (_data : Word) (s : State) : Outcome := .next (busError addr s)

/-- BUS_MISALIGNED, ADDR[1:0] = 0b10 (R120). -/
def execBusMisalignedB (_wr : Bool) (addr : Offset) (_data : Word) (s : State) : Outcome := .next (busError addr s)

end Sys2Proof.Machine
end

