-- ==== Sys2Proof/Machine/PadXor.lean ====
section
/-! DEFINITION. The key-pad XOR unit and the block assembly (spec/41_pad_xor.md). The word files are mapped and joined on
their lists, which the kernel can evaluate. -/

namespace Sys2Proof.Machine

/-- Pad select (R140). In IDLE there is no phase, and no pad is defined (log 20). -/
def padOf : Phase → Word
  | .inner => Config.ipad
  | .outer => Config.opad

/-- Broadcast XOR, `KX[i] = KEY[i] ^ PAD` for i = 0..7 (R141). -/
def padXor (pad : Word) (key : Words8) : Words8 :=
  ⟨⟨key.toList.map (fun k => k ^^^ pad)⟩, by simp⟩

/-- The inner key block, `IKB[i] = KEY[i] ^ IPAD` (R142). -/
def innerKeyBlock (key : Words8) : Words8 := padXor (padOf .inner) key

/-- The outer key block, `OKB[i] = KEY[i] ^ OPAD` (R143). -/
def outerKeyBlock (key : Words8) : Words8 := padXor (padOf .outer) key

/-- Block mux: the second half of the block, MSG in the inner phase and D in the outer (R145). -/
def blockMux (p : Phase) (r : Regs) : Words8 :=
  match p with
  | .inner => r.msg
  | .outer => r.d

/-- `A ++ B`: A takes indices 0..7 and B takes 8..15 (spec/00_scope.md R10; R146). -/
def joinHalves (a b : Words8) : Block := ⟨⟨a.toList ++ b.toList⟩, by simp⟩

/-- Block assembly, `BLOCK = KX ++ SECOND` (R146). -/
def assembleBlock (p : Phase) (r : Regs) : Block := joinHalves (padXor (padOf p) r.key) (blockMux p r)

end Sys2Proof.Machine
end

