-- ==== Sys2Proof/Machine/HashPort.lean ====
section
/-! DEFINITION. The hash port and the hash primitive's side of it (spec/42_sequencer.md R150 to R154, R170). -/

namespace Sys2Proof.Machine

/-- `hreq_valid`: SEQ is INNER_REQ or OUTER_REQ (R151). -/
def hreqValid (r : Regs) : Bool := r.seq.isReq

/-- `hreq_block`: BLOCK while `hreq_valid = 1`, not defined otherwise (R151; item I8; log 20). -/
def hreqBlock (r : Regs) : Option Block :=
  if hreqValid r then r.seq.phase.map (fun p => assembleBlock p r) else none

/-- The primitive's acceptance of a block, HP <- some b (R153(a)). -/
def acceptBlock (b : Block) (s : State) : State := { s with hp := some b }

/-- The digest the primitive delivers: HASH_FN of the block in flight (R153(b)). With no block in flight no rule gives
a digest: a free value (log 10). -/
def hrspDigest (s : State) : Digest :=
  match s.hp with
  | some b => Config.hashFn b
  | none => Config.freeDigest s.draws

/-- After a response HP is none (R153(b)). A free value that was drawn is not drawn again (log 10). -/
def endResponse (s : State) : State :=
  { s with hp := none, draws := if s.hp.isNone then s.draws + 1 else s.draws }

/-- The primitive accepts only when it holds no block (R153(a)). -/
def acceptsBlock (c : ClockCycle) (s : State) : Bool := c.hreqReady && s.hp.isNone

/-- The primitive responds only while it holds a block (R153(c)). -/
def responds (c : ClockCycle) (s : State) : Bool := c.hrspValid && s.hp.isSome

/-- `hrsp_err`: a free draw when HASH_CAN_FAIL, else 0 (R154). -/
def responseErr (canFail : Bool) (c : ClockCycle) : Bool := canFail && c.hrspErr

/-! ### The flat buses -/

/-- The words of a list side by side, word j on bits [32j+31:32j] (spec/41_pad_xor.md R146; R150). -/
def packWords : (ws : List Word) → BitVec (32 * ws.length)
  | [] => 0#0
  | w :: ws => (packWords ws ++ w).cast (by simp; omega)

/-- `hreq_block[511:0]` (R150). -/
def packBlock (b : Block) : BitVec 512 := (packWords b.toList).setWidth 512

/-- `hrsp_digest[255:0]` (R150). -/
def packDigest (d : Digest) : BitVec 256 := (packWords d.toList).setWidth 256

/-- Word j of `hrsp_digest` (R150). -/
def digestWord (bits : BitVec 256) (j : Index) : Word := bits.extractLsb' (32 * j.val) 32

end Sys2Proof.Machine
end

