-- ==== Sys2Proof/Machine/Sequencer.lean ====
section
/-! DEFINITION. The meanings of the SEQ operations (spec/42_sequencer.md section 2). -/

namespace Sys2Proof.Machine

/-- A hold: the transition changes nothing. -/
def hold (s : State) : State := s

/-- The block of the phase is accepted and SEQ moves on to `next` (R157, R162). -/
def issue (p : Phase) (next : SeqState) (s : State) : State :=
  acceptBlock (assembleBlock p s.regs) { s with regs := { s.regs with seq := next } }

/-- The digest delivered is routed by the phase, `f` is applied to the registers, and HP is none (R159, R164, R180). -/
def capture (p : Phase) (f : Regs → Regs) (s : State) : State :=
  endResponse { s with regs := f (routeDigest p (hrspDigest s) s.regs) }

/-- `HP <- none; raise EngineError(3)` (R160, R165). -/
def hashFailure (s : State) : State :=
  { s with regs := raiseEngineError hashPrimitiveFailure s.regs, hp := none }

/-- SEQ_IDLE (R155). -/
def execSeqIdle (_hs _he : Bool) (s : State) : Outcome := .next (whenSeq .idle hold s)

/-- SEQ_INNER_REQ_HOLD (R156). -/
def execSeqInnerReqHold (_he : Bool) (s : State) : Outcome := .next (whenSeq .innerReq hold s)

/-- SEQ_ISSUE_INNER (R157). -/
def execSeqIssueInner (_he : Bool) (s : State) : Outcome :=
  .next (whenSeq .innerReq (issue .inner .innerWait) s)

/-- SEQ_INNER_WAIT_HOLD (R158). -/
def execSeqInnerWaitHold (_he : Bool) (s : State) : Outcome := .next (whenSeq .innerWait hold s)

/-- SEQ_CAPTURE_INNER (R159). -/
def execSeqCaptureInner (s : State) : Outcome :=
  .next (whenSeq .innerWait (capture .inner (fun r => { r with seq := .outerReq })) s)

/-- SEQ_FAIL_INNER (R160). -/
def execSeqFailInner (s : State) : Outcome := .next (whenSeq .innerWait hashFailure s)

/-- SEQ_OUTER_REQ_HOLD (R161). -/
def execSeqOuterReqHold (_he : Bool) (s : State) : Outcome := .next (whenSeq .outerReq hold s)

/-- SEQ_ISSUE_OUTER (R162). -/
def execSeqIssueOuter (_he : Bool) (s : State) : Outcome :=
  .next (whenSeq .outerReq (issue .outer .outerWait) s)

/-- SEQ_OUTER_WAIT_HOLD (R163). -/
def execSeqOuterWaitHold (_he : Bool) (s : State) : Outcome := .next (whenSeq .outerWait hold s)

/-- SEQ_CAPTURE_OUTER (R164). -/
def execSeqCaptureOuter (s : State) : Outcome :=
  .next (whenSeq .outerWait (capture .outer (fun r => { r with seq := .idle, done := true })) s)

/-- SEQ_FAIL_OUTER (R165). -/
def execSeqFailOuter (s : State) : Outcome := .next (whenSeq .outerWait hashFailure s)

/-- `SEQ <- IDLE`, no other state changes (R166). -/
def recoverIdle (s : State) : State := { s with regs := { s.regs with seq := .idle } }

/-- SEQ_ILLEGAL_STATE, S = 0b101 or 0b111 (R166; log 19). -/
def execSeqIllegalStateA (s1 : Bool) (_hs _he : Bool) (s : State) : Outcome :=
  .next (whenSeq (if s1 then .unused7 else .unused5) recoverIdle s)

/-- SEQ_ILLEGAL_STATE, S = 0b110 (R166; log 19). -/
def execSeqIllegalStateB (_hs _he : Bool) (s : State) : Outcome := .next (whenSeq .unused6 recoverIdle s)

end Sys2Proof.Machine
end

