-- ==== Sys2Proof/Machine/Dispatch.lean ====
section
/-! DEFINITION. One arm for each instruction. -/

namespace Sys2Proof.Machine

def exec (i : Instr) (s : State) : Host.Outcome State Fault Refusal :=
  match i with
  | .wrCtrl data => Sys2Proof.Machine.execWrCtrl data s
  | .rdCtrl => Sys2Proof.Machine.execRdCtrl s
  | .rdStatus => Sys2Proof.Machine.execRdStatus s
  | .wrStatus data => Sys2Proof.Machine.execWrStatus data s
  | .rdWmask => Sys2Proof.Machine.execRdWmask s
  | .wrWmask data => Sys2Proof.Machine.execWrWmask data s
  | .rdIpad => Sys2Proof.Machine.execRdIpad s
  | .wrIpad data => Sys2Proof.Machine.execWrIpad data s
  | .rdOpad => Sys2Proof.Machine.execRdOpad s
  | .wrOpad data => Sys2Proof.Machine.execWrOpad data s
  | .rdKey idx => Sys2Proof.Machine.execRdKey idx s
  | .wrKey idx data => Sys2Proof.Machine.execWrKey idx data s
  | .rdMsg idx => Sys2Proof.Machine.execRdMsg idx s
  | .wrMsg idx data => Sys2Proof.Machine.execWrMsg idx data s
  | .rdResult idx => Sys2Proof.Machine.execRdResult idx s
  | .wrResult idx data => Sys2Proof.Machine.execWrResult idx data s
  | .busReservedA wr data => Sys2Proof.Machine.execBusReservedA wr data s
  | .busReservedB wr addr data => Sys2Proof.Machine.execBusReservedB wr addr data s
  | .busReservedC wr addr data => Sys2Proof.Machine.execBusReservedC wr addr data s
  | .busMisalignedA wr addr data => Sys2Proof.Machine.execBusMisalignedA wr addr data s
  | .busMisalignedB wr addr data => Sys2Proof.Machine.execBusMisalignedB wr addr data s
  | .seqIdle hs he => Sys2Proof.Machine.execSeqIdle hs he s
  | .seqInnerReqHold he => Sys2Proof.Machine.execSeqInnerReqHold he s
  | .seqIssueInner he => Sys2Proof.Machine.execSeqIssueInner he s
  | .seqInnerWaitHold he => Sys2Proof.Machine.execSeqInnerWaitHold he s
  | .seqCaptureInner => Sys2Proof.Machine.execSeqCaptureInner s
  | .seqFailInner => Sys2Proof.Machine.execSeqFailInner s
  | .seqOuterReqHold he => Sys2Proof.Machine.execSeqOuterReqHold he s
  | .seqIssueOuter he => Sys2Proof.Machine.execSeqIssueOuter he s
  | .seqOuterWaitHold he => Sys2Proof.Machine.execSeqOuterWaitHold he s
  | .seqCaptureOuter => Sys2Proof.Machine.execSeqCaptureOuter s
  | .seqFailOuter => Sys2Proof.Machine.execSeqFailOuter s
  | .seqIllegalStateA s1 hs he => Sys2Proof.Machine.execSeqIllegalStateA s1 hs he s
  | .seqIllegalStateB hs he => Sys2Proof.Machine.execSeqIllegalStateB hs he s

end Sys2Proof.Machine
end

