-- ==== Sys2Proof/Machine/Clock.lean ====
section
/-! DEFINITION. One clock cycle and the edge that ends it: the input pins, reset, the bus transaction, the sequencer's
event word (spec/30_encoding.md R74; spec/40_bus_ops.md R100, R121; spec/42_sequencer.md R150; spec/70_reset_and_hazards.md
R230, R231), and the placing of a word where the next cycle runs it. -/

namespace Sys2Proof.Machine

/-! ### The input pins -/

/-- The cycle after the scheduled ones: no reset, no transaction, and the hash primitive keeps its fairness duty R244
by accepting and responding at once; its error bit is a free draw (R154; log 2, log 3). -/
def quietCycle (draw : Nat) : ClockCycle where
  rst := false
  req := none
  hreqReady := true
  hrspValid := true
  hrspErr := Config.freeHashErr draw

/-- The pins of this cycle, and the state with them taken off the schedule. -/
def takeCycle (s : State) : ClockCycle × State :=
  match s.env with
  | [] => (quietCycle s.draws, { s with draws := s.draws + 1 })
  | c :: rest => (c, { s with env := rest })

/-! ### The event word -/

/-- HS: `hreq_ready` in a REQ state, `hrsp_valid` in a WAIT state; elsewhere ignored, and taken as the `hreq_ready` pin
(R74; log 15). The primitive's duties R153(a), (c) gate the two pins (log 11). -/
def eventHs (c : ClockCycle) (s : State) : Bool :=
  if s.regs.seq.isReq then acceptsBlock c s
  else if s.regs.seq.isWait then responds c s
  else c.hreqReady

/-- HE: `hrsp_err` in a WAIT state, a draw of R154; elsewhere ignored, and taken as the pin (R74; log 15). -/
def eventHe (canFail : Bool) (c : ClockCycle) (s : State) : Bool :=
  if s.regs.seq.isWait then responseErr canFail c else c.hrspErr

/-- `E = {SEQ, HS, HE}` (R74). -/
def eventWord (canFail : Bool) (c : ClockCycle) (s : State) : SeqWord :=
  packSeq s.regs.seq.code (eventHs c s) (eventHe canFail c s)

/-! ### The edge -/

/-- Sequencing of two outcomes: the second is run on the state the first leaves. -/
def andThen (o : Outcome) (f : State → Outcome) : Outcome :=
  match o with
  | .next s => f s
  | .fault r => .fault r
  | .refused r => .refused r

/-- The response of a transaction in a reset cycle, `respond(0, 1)` (R121). -/
def resetResponse (c : ClockCycle) : Option Response :=
  c.req.map (fun _ => { rdata := 0#32, err := true })

/-- An edge with `rst = 1`: CORE takes its reset state, the primitive is reset with it (R233), and nothing else
happens (R230, R231). -/
def resetEdge (c : ClockCycle) (s : State) : State :=
  { s with regs := Regs.reset, hp := none, rsp := resetResponse c }

/-- The bus part of a cycle: the transaction, if `req_valid = 1`, against the state at the start of the cycle (R100). -/
def busPart (c : ClockCycle) (s : State) : Outcome :=
  match c.req with
  | none => .next { s with rsp := none }
  | some t => exec (decodeBus t) { s with rsp := none }

/-- An edge with `rst = 0`: the transaction and the transition whose event word is formed from the state at the start
of the cycle (R60, R61, R100; log 9). -/
def activeEdge (canFail : Bool) (c : ClockCycle) (s : State) : Outcome :=
  andThen (busPart c s) (exec (decodeSeq (eventWord canFail c s)))

/-- One clock cycle, for the parameter HASH_CAN_FAIL (R8). Reset wins over everything (R231). -/
def clockEdge (canFail : Bool) (s : State) : Outcome :=
  if (takeCycle s).1.rst then .next (resetEdge (takeCycle s).1 (takeCycle s).2)
  else activeEdge canFail (takeCycle s).1 (takeCycle s).2

/-! ### Placing an operation (log 16) -/

/-- A cycle that carries the transaction and in which the hash primitive does nothing. -/
def transactionCycle (t : BusWord) : ClockCycle where
  rst := false
  req := some t
  hreqReady := false
  hrspValid := false
  hrspErr := false

/-- A cycle without a transaction whose hash pins are HS and HE. -/
def eventCycle (e : SeqWord) : ClockCycle where
  rst := false
  req := none
  hreqReady := seqHs e
  hrspValid := seqHs e
  hrspErr := seqHe e

/-- HP as the event needs it: none for an acceptance, a block in flight for a response, else as it is (R153). -/
def hpForEvent (e : SeqWord) (r : Regs) (hp : Option Block) : Option Block :=
  if !seqHs e then hp
  else if (SeqState.ofCode (seqS e)).isReq then none
  else if (SeqState.ofCode (seqS e)).isWait then
    (match hp with
     | some b => some b
     | none => (SeqState.ofCode (seqS e)).phase.map (fun p => assembleBlock p r))
  else hp

/-- The state whose next cycle runs the operation word: a BUS word on the request pins, or the sequencer state and the
hash pins of an event word. -/
def placeWord (x : OpWord) (s : State) : State :=
  match x with
  | .bus t => { s with env := transactionCycle t :: s.env }
  | .seq e =>
    { s with
      regs := { s.regs with seq := SeqState.ofCode (seqS e) }
      hp := hpForEvent e s.regs s.hp
      env := eventCycle e :: s.env }

end Sys2Proof.Machine
end

