-- ==== Sys2Proof/Machine/Step.lean ====
section
/-! DEFINITION. The step, one clock cycle, and the placing of a word of the opcode table where the next step runs it. -/

namespace Sys2Proof.Machine

/-- One step: one clock cycle with HASH_CAN_FAIL at its default (spec/00_scope.md R8). -/
def step (s : State) : Host.Outcome State Fault Refusal := clockEdge Config.hashCanFail s

/-- `s` with the table word placed where the next step runs it (log 16). A number that is no operation word changes
nothing. -/
def State.withFetchWord (s : State) (nbits w : Nat) : State :=
  match tableWord nbits w with
  | .ok x => placeWord x s
  | .error _ => s

end Sys2Proof.Machine
end

