-- ==== Sys2Proof/Safety.lean ====
section
/-! DEFINITION. What the claims speak of: the invariants of spec/10_state.md R42, the function CORE computes, the progress
of a computation, runs of several cycles, the atomic moves of spec/42_sequencer.md R171, and what the key may not
influence. -/

namespace Sys2Proof.Machine

/-! ### Invariants -/

/-- R42, items (i) to (vii). -/
structure State.Inv (s : State) : Prop where
  /-- (i) -/
  busyIsClean : s.regs.busy = true → s.regs.done = false ∧ s.regs.err = false
  /-- (ii) -/
  notDoneAndErr : ¬(s.regs.done = true ∧ s.regs.err = true)
  /-- (iii) -/
  errIffCode : s.regs.err = false ↔ s.regs.errCode = 0#4
  /-- (iv) -/
  codeRange : s.regs.errCode = 0#4 ∨ s.regs.errCode = 1#4 ∨ s.regs.errCode = 2#4 ∨ s.regs.errCode = 3#4
  /-- (v) -/
  busyIsComplete : s.regs.busy = true → s.regs.kwm = 0xFF#8 ∧ s.regs.mwm = 0xFF#8
  /-- (vi) -/
  seqIsUsed : s.regs.seq = .idle ∨ s.regs.seq = .innerReq ∨ s.regs.seq = .innerWait ∨ s.regs.seq = .outerReq
    ∨ s.regs.seq = .outerWait
  /-- (vii) -/
  inFlightIffWait : s.hp.isSome = true ↔ (s.regs.seq = .innerWait ∨ s.regs.seq = .outerWait)

/-! ### The function computed -/

/-- The inner digest of key K and message M: `H((K ^ ipad) ++ M)` (R12). -/
def innerDigestOf (key msg : Words8) : Digest :=
  Config.hashFn (key.map (fun k => k ^^^ 0x36363636#32) ++ msg)

/-- The MAC of key K and message M: `H((K ^ opad) ++ H((K ^ ipad) ++ M))` (spec/42_sequencer.md R168). -/
def macOf (key msg : Words8) : Digest :=
  Config.hashFn (key.map (fun k => k ^^^ 0x5c5c5c5c#32) ++ innerDigestOf key msg)

/-- The claim of the source's reference vector L1-1 about the parameters REF_KEY and HASH_FN
(spec/95_test_vectors.md). It is open: both are parameters. -/
def referenceVector : Prop :=
  macOf Config.refKey #v[0#32, 0#32, 0#32, 0#32, 0#32, 0#32, 5#32, 5#32] =
    #v[0x7dd3a7db#32, 0xe6497184#32, 0x731de467#32, 0x1ee58d18#32, 0xdf441fcf#32, 0xa7f7db56#32, 0x20ec372c#32,
      0x8dd059ad#32]

/-- How far a computation on key K and message M has come: what each busy state of SEQ holds. -/
def Progress (key msg : Words8) (s : State) : Prop :=
  s.regs.key = key ∧ s.regs.msg = msg ∧ s.regs.done = false ∧ s.regs.err = false ∧
  ((s.regs.seq = .innerReq ∧ s.hp = none) ∨
   (s.regs.seq = .innerWait ∧ s.hp = some (key.map (fun k => k ^^^ 0x36363636#32) ++ msg)) ∨
   (s.regs.seq = .outerReq ∧ s.hp = none ∧ s.regs.d = innerDigestOf key msg) ∨
   (s.regs.seq = .outerWait ∧ s.hp = some (key.map (fun k => k ^^^ 0x5c5c5c5c#32) ++ innerDigestOf key msg) ∧
     s.regs.d = innerDigestOf key msg))

/-- SEQ stays, or goes on to the next state of the order of R167. -/
def SameOrNextStage (s u : State) : Prop :=
  u.regs.seq = s.regs.seq ∨
  (s.regs.seq = .innerReq ∧ u.regs.seq = .innerWait) ∨
  (s.regs.seq = .innerWait ∧ u.regs.seq = .outerReq) ∨
  (s.regs.seq = .outerReq ∧ u.regs.seq = .outerWait)

/-! ### Runs -/

/-- `n` cycles. -/
def stepN : Nat → State → Outcome
  | 0, s => .next s
  | n + 1, s => andThen (step s) (stepN n)

/-- Some cycle without reset takes the state to one whose SEQ is `q`. -/
def CanGoTo (s : State) (q : SeqState) : Prop :=
  ∃ c u, c.rst = false ∧ step { s with env := c :: s.env } = .next u ∧ u.regs.seq = q

/-- No scheduled cycle asserts reset. -/
def NoReset (cs : List ClockCycle) : Prop := ∀ c ∈ cs, c.rst = false

/-- The cycle writes START or CLEAR to CTRL. -/
def ClockCycle.commands (c : ClockCycle) : Prop := ∃ t data, c.req = some t ∧ decodeBus t = .wrCtrl data ∧ isCommand data = true

/-- A cycle with no transaction in which the hash primitive accepts and responds nothing. -/
def waitCycle : ClockCycle where
  rst := false
  req := none
  hreqReady := false
  hrspValid := false
  hrspErr := false

/-- A cycle with no transaction in which the hash primitive accepts an offered block. -/
def acceptCycle : ClockCycle := { waitCycle with hreqReady := true }

/-- A cycle with no transaction in which the hash primitive responds without an error. -/
def respondCycle : ClockCycle := { waitCycle with hrspValid := true }

/-- The hash pins of one hash call: `w` cycles before the cycle of acceptance, and a response `l` edges after it
(`l ≥ 1`; spec/70_reset_and_hazards.md R242). -/
def hashCall (w l : Nat) : List ClockCycle :=
  List.replicate w waitCycle ++ [acceptCycle] ++ List.replicate (l - 1) waitCycle ++ [respondCycle]

/-! ### Atomic moves (spec/42_sequencer.md R171, spec/20_memory.md R61) -/

/-- The two states agree on CORE and on the block in flight. -/
def SameCore (s t : State) : Prop := s.regs = t.regs ∧ s.hp = t.hp

/-- A step of the host or of the hash agent, with no clock. Holding is the absence of a move. -/
inductive AtomicMove (canFail : Bool) : State → State → Prop where
  /-- one bus transaction (R100) -/
  | transaction (t : BusWord) (s s' : State) : exec (decodeBus t) s = .next s' → AtomicMove canFail s s'
  /-- reset of CORE and of the primitive (R230, R233) -/
  | reset (s : State) : AtomicMove canFail s { s with regs := Regs.reset, hp := none }
  /-- `issue` in INNER_REQ (R157) -/
  | issueInner (s : State) : s.regs.seq = .innerReq → s.hp = none →
      AtomicMove canFail s
        { s with
          regs := { s.regs with seq := .innerWait }
          hp := some (s.regs.key.map (fun k => k ^^^ 0x36363636#32) ++ s.regs.msg) }
  /-- `issue` in OUTER_REQ (R162) -/
  | issueOuter (s : State) : s.regs.seq = .outerReq → s.hp = none →
      AtomicMove canFail s
        { s with
          regs := { s.regs with seq := .outerWait }
          hp := some (s.regs.key.map (fun k => k ^^^ 0x5c5c5c5c#32) ++ s.regs.d) }
  /-- `respond(0)` in INNER_WAIT (R159) -/
  | respondInner (s : State) (b : Block) : s.regs.seq = .innerWait → s.hp = some b →
      AtomicMove canFail s
        { s with regs := { s.regs with d := Config.hashFn b, seq := .outerReq }, hp := none }
  /-- `respond(0)` in OUTER_WAIT (R164) -/
  | respondOuter (s : State) (b : Block) : s.regs.seq = .outerWait → s.hp = some b →
      AtomicMove canFail s
        { s with regs := { s.regs with r := Config.hashFn b, seq := .idle, done := true }, hp := none }
  /-- `respond(1)` in a WAIT state, only when HASH_CAN_FAIL (R154, R160, R165) -/
  | fail (s : State) (b : Block) : canFail = true → s.regs.seq = .innerWait ∨ s.regs.seq = .outerWait →
      s.hp = some b →
      AtomicMove canFail s
        { s with regs := { s.regs with err := true, errCode := 3#4, seq := .idle }, hp := none }

/-! ### What the key may not influence (spec/10_state.md R21, R24; spec/43_result_mux.md R182) -/

/-- The states differ at most in KEY, D, R, the contents of the block in flight, and the last response. -/
def SameButSecrets (s t : State) : Prop :=
  s.regs.msg = t.regs.msg ∧ s.regs.kwm = t.regs.kwm ∧ s.regs.mwm = t.regs.mwm ∧ s.regs.seq = t.regs.seq ∧
  s.regs.done = t.regs.done ∧ s.regs.err = t.regs.err ∧ s.regs.errCode = t.regs.errCode ∧
  s.hp.isSome = t.hp.isSome ∧ s.env = t.env ∧ s.draws = t.draws

/-- The MACs the host can see are the same: R agrees where DONE shows it. -/
def SameShownMac (s t : State) : Prop := s.regs.done = true → s.regs.r = t.regs.r

end Sys2Proof.Machine
end

