-- ==== Sys2Proof/Certificates/Slice0/Obligations.lean ====
section
/-! DEFINITION. The statements for the provers. Each docstring names the rules of spec/ it formalises. -/

open Sys2Proof Sys2Proof.Machine

/-! ### Decoding and encoding -/

/-- Every well-formed operation is read back from its word, with every operand. -/
def Obligations.DecodingAnEncodedOperationGivesItBack : Prop :=
  ∀ i : Instr, i.wellFormed = true → decode (encode i) = i

/-- Every word of either format decodes to a well-formed operation, and encoding it gives the word back but for the
DATA bits of a read, which R71 ignores. -/
def Obligations.EncodingADecodedWordGivesItsCanonicalForm : Prop :=
  ∀ x : OpWord, (decode x).wellFormed = true ∧ encode (decode x) = x.canonical

/-- R76, R77: a word is of exactly one row of the match/mask tables, the row of the operation it decodes to. -/
def Obligations.DecoderAgreesWithTheMatchMaskTables : Prop :=
  ∀ (x : OpWord) (name : String), x.inRowNamed name = true ↔ name = (decode x).mnemonic

/-- Words written out from the spec's encodings and examples decode to the operations they stand for. -/
def Obligations.WrittenOutWordsDecode : Prop :=
  decodeTableWord 41 0x12011223344 = some (.wrKey 0 0x11223344#32) ∧
  decodeTableWord 41 0x15800000005 = some (.wrMsg 6 0x00000005#32) ∧
  decodeTableWord 41 0x07C00000000 = some (.rdResult 7) ∧
  decodeTableWord 41 0x10000000003 = some (.wrCtrl 0x00000003#32) ∧
  decodeTableWord 41 0x00400000000 = some .rdStatus ∧
  decodeTableWord 41 0x08000000000 = some (.busReservedC false 0x80#8 0#32) ∧
  decodeTableWord 41 0x12112345678 = some (.busMisalignedA true 0x21#8 0x12345678#32) ∧
  decodeTableWord 5 0b01010 = some .seqCaptureInner ∧
  decodeTableWord 5 0b01110 = some (.seqIssueOuter false) ∧
  decodeTableWord 5 0b10011 = some .seqFailOuter ∧
  decodeTableWord 5 0b11100 = some (.seqIllegalStateA true false false)

/-! ### The step -/

/-- R74, R100: in a cycle without reset the step is exec of the transaction's operation, then exec of the operation of
the event word formed from the state at the start of the cycle. Around exec the step takes the cycle off the schedule
and clears the response of the cycle before. HS and HE in states where they are ignored follow log 15, the gating by
the block in flight log 11. -/
def Obligations.StepRunsTheDecodedTransactionAndEvent : Prop :=
  ∀ (s : State) (c : ClockCycle) (rest : List ClockCycle), s.env = c :: rest → c.rst = false →
    ∃ hs he : Bool,
      ((s.regs.seq = .innerReq ∨ s.regs.seq = .outerReq) → hs = (c.hreqReady && s.hp.isNone)) ∧
      ((s.regs.seq = .innerWait ∨ s.regs.seq = .outerWait) →
        hs = (c.hrspValid && s.hp.isSome) ∧ he = (Config.hashCanFail && c.hrspErr)) ∧
      (c.req = none →
        step s = exec (decodeSeq (packSeq s.regs.seq.code hs he)) { s with env := rest, rsp := none }) ∧
      (∀ t u, c.req = some t → exec (decodeBus t) { s with env := rest, rsp := none } = .next u →
        step s = exec (decodeSeq (packSeq s.regs.seq.code hs he)) u)

/-- The model's interface (log 16): a table word placed by `withFetchWord` is the operation the next step runs. -/
def Obligations.StepRunsThePlacedTableWord : Prop :=
  ∀ s : State,
    (∀ t : BusWord, (s.regs.seq = .idle ∨ s.regs.seq = .innerReq ∨ s.regs.seq = .innerWait ∨
        s.regs.seq = .outerReq ∨ s.regs.seq = .outerWait) →
      step (s.withFetchWord 41 t.toNat) = exec (decodeBus t) { s with rsp := none }) ∧
    (∀ e : SeqWord,
      step (s.withFetchWord 5 e.toNat) =
        exec (decodeSeq e)
          { s with
            regs := { s.regs with seq := SeqState.ofCode (seqS e) }
            hp := hpForEvent e s.regs s.hp
            rsp := none })

/-- R200: CORE has no traps; every step, and every operation in every state, answers a next state. -/
def Obligations.NothingStopsTheMachine : Prop :=
  (∀ s : State, ∃ t, step s = .next t) ∧ (∀ (i : Instr) (s : State), ∃ t, exec i s = .next t)

/-- R43, R121, R230, R231, R232: an edge with `rst = 1` leaves every element at its reset value and no block offered,
whatever else happens in the cycle; a transaction in it gets (0, 1). `State.reset` has those registers. That no block
is in flight either rests on the integration duty of R233, which the model takes as kept (log 11). -/
def Obligations.ResetEdgeLeavesTheResetState : Prop :=
  ∀ (s : State) (c : ClockCycle) (rest : List ClockCycle), s.env = c :: rest → c.rst = true →
    ∃ t, step s = .next t ∧
      (∀ i : Index, t.regs.key[i] = 0x00000000#32 ∧ t.regs.msg[i] = 0x00000000#32 ∧ t.regs.d[i] = 0x00000000#32 ∧
        t.regs.r[i] = 0x00000000#32) ∧
      t.regs.kwm = 0x00#8 ∧ t.regs.mwm = 0x00#8 ∧ t.regs.seq = .idle ∧ t.regs.done = false ∧ t.regs.err = false ∧
      t.regs.errCode = 0x0#4 ∧ t.hp = none ∧ hreqValid t.regs = false ∧
      t.rsp = c.req.map (fun _ => { rdata := 0x00000000#32, err := true }) ∧ State.reset.regs = t.regs

/-! ### Invariants -/

/-- R42 holds of the state after reset. -/
def Obligations.ResetStateMeetsTheInvariants : Prop := State.reset.Inv

/-- R42, (i) to (vii): every step keeps the invariants, from every state that meets them, reset and failing hash
responses included. -/
def Obligations.EveryStepKeepsTheInvariants : Prop :=
  ∀ s t : State, s.Inv → step s = .next t → t.Inv

/-! ### Reads -/

/-- R104, R109, R111, R113: these reads answer a constant in every state, the key never; nothing else changes. -/
def Obligations.ReadsOfCtrlPadsAndKeyAnswerConstants : Prop :=
  ∀ (s : State) (i : Index),
    (∀ t, busWr t = false → busAddr t = 0x00#8 → decodeBus t = .rdCtrl) ∧
    exec .rdCtrl s = .next { s with rsp := some { rdata := 0x00000000#32, err := false } } ∧
    (∀ t, busWr t = false → busAddr t = 0x0C#8 → decodeBus t = .rdIpad) ∧
    exec .rdIpad s = .next { s with rsp := some { rdata := 0x36363636#32, err := false } } ∧
    (∀ t, busWr t = false → busAddr t = 0x10#8 → decodeBus t = .rdOpad) ∧
    exec .rdOpad s = .next { s with rsp := some { rdata := 0x5c5c5c5c#32, err := false } } ∧
    (∀ t, busWr t = false → (busAddr t).toNat = 0x20 + 4 * i.val → decodeBus t = .rdKey i) ∧
    exec (.rdKey i) s = .next { s with rsp := some { rdata := 0x00000000#32, err := false } }

/-- R38, R105: the STATUS word, field by field, with the SEQ codes of R28; nothing else changes. -/
def Obligations.ReadStatusPacksTheFlagsAndTheSequencer : Prop :=
  ∀ s : State,
    (∀ t, busWr t = false → busAddr t = 0x04#8 → decodeBus t = .rdStatus) ∧
    ∃ v : Word, exec .rdStatus s = .next { s with rsp := some { rdata := v, err := false } } ∧
      (v.getLsbD 0 = true ↔ s.regs.seq ≠ .idle) ∧ v.getLsbD 1 = s.regs.done ∧ v.getLsbD 2 = s.regs.err ∧
      v.getLsbD 3 = false ∧ v.getLsbD 7 = false ∧ v.extractLsb' 8 4 = s.regs.errCode ∧ v.extractLsb' 12 20 = 0#20 ∧
      (s.regs.seq = .idle → v.extractLsb' 4 3 = 0b000#3) ∧ (s.regs.seq = .innerReq → v.extractLsb' 4 3 = 0b001#3) ∧
      (s.regs.seq = .innerWait → v.extractLsb' 4 3 = 0b010#3) ∧
      (s.regs.seq = .outerReq → v.extractLsb' 4 3 = 0b011#3) ∧
      (s.regs.seq = .outerWait → v.extractLsb' 4 3 = 0b100#3)

/-- R39, R107: WMASK is MWM above KWM; nothing else changes. -/
def Obligations.ReadWmaskShowsBothMasks : Prop :=
  ∀ s : State,
    (∀ t, busWr t = false → busAddr t = 0x08#8 → decodeBus t = .rdWmask) ∧
    ∃ v : Word, exec .rdWmask s = .next { s with rsp := some { rdata := v, err := false } } ∧
      v.extractLsb' 0 8 = s.regs.kwm ∧ v.extractLsb' 8 8 = s.regs.mwm ∧ v.extractLsb' 16 16 = 0#16

/-- R115, R117, R181: MSG[i] is read back in every state; RESULT[i] is R[i] when DONE = 1 and 0 otherwise; nothing
else changes. -/
def Obligations.ReadsOfMessageAndResult : Prop :=
  ∀ (s : State) (i : Index),
    (∀ t, busWr t = false → (busAddr t).toNat = 0x40 + 4 * i.val → decodeBus t = .rdMsg i) ∧
    exec (.rdMsg i) s = .next { s with rsp := some { rdata := s.regs.msg[i], err := false } } ∧
    (∀ t, busWr t = false → (busAddr t).toNat = 0x60 + 4 * i.val → decodeBus t = .rdResult i) ∧
    (s.regs.done = true →
      exec (.rdResult i) s = .next { s with rsp := some { rdata := s.regs.r[i], err := false } }) ∧
    (s.regs.done = false →
      exec (.rdResult i) s = .next { s with rsp := some { rdata := 0x00000000#32, err := false } })

/-! ### Writes -/

/-- R106, R108, R110, R112, R118, R202: a write to a read-only register gets (0, 1) in every state and changes nothing
else. -/
def Obligations.WritesToReadOnlyRegistersAreBusErrors : Prop :=
  ∀ (s : State) (i : Index) (v : Word),
    (∀ t, busWr t = true → busAddr t = 0x04#8 → busData t = v → decodeBus t = .wrStatus v) ∧
    exec (.wrStatus v) s = .next { s with rsp := some { rdata := 0#32, err := true } } ∧
    (∀ t, busWr t = true → busAddr t = 0x08#8 → busData t = v → decodeBus t = .wrWmask v) ∧
    exec (.wrWmask v) s = .next { s with rsp := some { rdata := 0#32, err := true } } ∧
    (∀ t, busWr t = true → busAddr t = 0x0C#8 → busData t = v → decodeBus t = .wrIpad v) ∧
    exec (.wrIpad v) s = .next { s with rsp := some { rdata := 0#32, err := true } } ∧
    (∀ t, busWr t = true → busAddr t = 0x10#8 → busData t = v → decodeBus t = .wrOpad v) ∧
    exec (.wrOpad v) s = .next { s with rsp := some { rdata := 0#32, err := true } } ∧
    (∀ t, busWr t = true → (busAddr t).toNat = 0x60 + 4 * i.val → busData t = v → decodeBus t = .wrResult i v) ∧
    exec (.wrResult i v) s = .next { s with rsp := some { rdata := 0#32, err := true } }

/-- R119, R120, R202: a reserved or misaligned access, read or write, gets (0, 1) in every state and changes nothing
else. The five rows' operations do so for all operands, and every word with such an offset is one of them. -/
def Obligations.ReservedAndMisalignedAccessesAreBusErrors : Prop :=
  ∀ (s : State) (wr : Bool) (a : Offset) (v : Word),
    exec (.busReservedA wr v) s = .next { s with rsp := some { rdata := 0#32, err := true } } ∧
    exec (.busReservedB wr a v) s = .next { s with rsp := some { rdata := 0#32, err := true } } ∧
    exec (.busReservedC wr a v) s = .next { s with rsp := some { rdata := 0#32, err := true } } ∧
    exec (.busMisalignedA wr a v) s = .next { s with rsp := some { rdata := 0#32, err := true } } ∧
    exec (.busMisalignedB wr a v) s = .next { s with rsp := some { rdata := 0#32, err := true } } ∧
    (∀ t : BusWord,
      (busAddr t).extractLsb' 0 2 ≠ 0b00#2 ∨ busAddr t = 0x14#8 ∨ busAddr t = 0x18#8 ∨ busAddr t = 0x1C#8 ∨
        0x80 ≤ (busAddr t).toNat →
      exec (decodeBus t) s = .next { s with rsp := some { rdata := 0#32, err := true } })

/-- R114: an idle CORE stores the key word and sets its mask bit, whatever the value; a busy one refuses. KEY, KWM and
the response are all that changes. -/
def Obligations.WriteKeyStoresWhenIdleAndIsRefusedWhenBusy : Prop :=
  ∀ (s : State) (i : Index) (v : Word),
    (∀ t, busWr t = true → (busAddr t).toNat = 0x20 + 4 * i.val → busData t = v → decodeBus t = .wrKey i v) ∧
    (s.regs.seq = .idle →
      ∃ u, exec (.wrKey i v) s = .next u ∧
        (∀ j : Index, u.regs.key[j] = if j = i then v else s.regs.key[j]) ∧
        (∀ j : Index, u.regs.kwm.getLsbD j.val = if j = i then true else s.regs.kwm.getLsbD j.val) ∧
        u = { s with
          regs := { s.regs with key := u.regs.key, kwm := u.regs.kwm }
          rsp := some { rdata := 0#32, err := false } }) ∧
    (s.regs.seq ≠ .idle →
      exec (.wrKey i v) s = .next { s with rsp := some { rdata := 0#32, err := true } })

/-- R116: the same for a message word, MSG and MWM. -/
def Obligations.WriteMessageStoresWhenIdleAndIsRefusedWhenBusy : Prop :=
  ∀ (s : State) (i : Index) (v : Word),
    (∀ t, busWr t = true → (busAddr t).toNat = 0x40 + 4 * i.val → busData t = v → decodeBus t = .wrMsg i v) ∧
    (s.regs.seq = .idle →
      ∃ u, exec (.wrMsg i v) s = .next u ∧
        (∀ j : Index, u.regs.msg[j] = if j = i then v else s.regs.msg[j]) ∧
        (∀ j : Index, u.regs.mwm.getLsbD j.val = if j = i then true else s.regs.mwm.getLsbD j.val) ∧
        u = { s with
          regs := { s.regs with msg := u.regs.msg, mwm := u.regs.mwm }
          rsp := some { rdata := 0#32, err := false } }) ∧
    (s.regs.seq ≠ .idle →
      exec (.wrMsg i v) s = .next { s with rsp := some { rdata := 0#32, err := true } })

/-- R101, R103: a CTRL write while BUSY is refused if it holds a command and has no effect otherwise. While idle,
CLEAR, which wins over START, puts CORE's registers to their reset values; START alone runs START_ACTION; a write
without a command has no effect. DATA[31:2] play no part. -/
def Obligations.WriteCtrlRunsItsCommandOnlyWhenIdle : Prop :=
  ∀ (s : State) (v : Word),
    (∀ t, busWr t = true → busAddr t = 0x00#8 → busData t = v → decodeBus t = .wrCtrl v) ∧
    (s.regs.seq ≠ .idle → (v.getLsbD 1 = true ∨ v.getLsbD 0 = true) →
      exec (.wrCtrl v) s = .next { s with rsp := some { rdata := 0#32, err := true } }) ∧
    (v.getLsbD 1 = false → v.getLsbD 0 = false →
      exec (.wrCtrl v) s = .next { s with rsp := some { rdata := 0#32, err := false } }) ∧
    (s.regs.seq = .idle → v.getLsbD 1 = true →
      exec (.wrCtrl v) s =
        .next { s with regs := State.reset.regs, rsp := some { rdata := 0#32, err := false } }) ∧
    (s.regs.seq = .idle → v.getLsbD 1 = false → v.getLsbD 0 = true →
      exec (.wrCtrl v) s =
        .next { s with regs := startAction s.regs, rsp := some { rdata := 0#32, err := false } })

/-- R102: START on an idle CORE. With a key word missing it is refused with code 1, else with a
message word missing with code 2, else the computation begins: DONE, ERR and ERR_CODE are cleared and SEQ goes to
INNER_REQ. Nothing else changes, and the write itself succeeds. -/
def Obligations.StartBeginsAComputationOrRecordsTheMissingInput : Prop :=
  ∀ (s : State) (v : Word), s.regs.seq = .idle → v.getLsbD 1 = false → v.getLsbD 0 = true →
    (s.regs.kwm ≠ 0xFF#8 →
      exec (.wrCtrl v) s =
        .next { s with
          regs := { s.regs with done := false, err := true, errCode := 0x1#4, seq := .idle }
          rsp := some { rdata := 0#32, err := false } }) ∧
    (s.regs.kwm = 0xFF#8 → s.regs.mwm ≠ 0xFF#8 →
      exec (.wrCtrl v) s =
        .next { s with
          regs := { s.regs with done := false, err := true, errCode := 0x2#4, seq := .idle }
          rsp := some { rdata := 0#32, err := false } }) ∧
    (s.regs.kwm = 0xFF#8 → s.regs.mwm = 0xFF#8 →
      exec (.wrCtrl v) s =
        .next { s with
          regs := { s.regs with done := false, err := false, errCode := 0x0#4, seq := .innerReq }
          rsp := some { rdata := 0#32, err := false } })

/-! ### Whole-bus rules -/

/-- R202: a transaction answered with an error changes nothing but the response, which is (0, 1). -/
def Obligations.BusErrorsChangeNothing : Prop :=
  ∀ (t : BusWord) (s u : State) (a : Response), exec (decodeBus t) s = .next u → u.rsp = some a → a.err = true →
    a.rdata = 0x00000000#32 ∧ u = { s with rsp := some a }

/-- R201: a transaction gets a bus error exactly for the six causes of the table. -/
def Obligations.BusErrorsHaveExactlyTheListedCauses : Prop :=
  ∀ (s : State) (c : ClockCycle) (rest : List ClockCycle) (t : BusWord), s.env = c :: rest → c.req = some t →
    ∃ u a, step s = .next u ∧ u.rsp = some a ∧
      (a.err = true ↔
        (c.rst = true ∨
         (busAddr t).extractLsb' 0 2 ≠ 0b00#2 ∨
         (busAddr t = 0x14#8 ∨ busAddr t = 0x18#8 ∨ busAddr t = 0x1C#8 ∨ 0x80 ≤ (busAddr t).toNat) ∨
         (busWr t = true ∧ (busAddr t = 0x04#8 ∨ busAddr t = 0x08#8 ∨ busAddr t = 0x0C#8 ∨ busAddr t = 0x10#8 ∨
           (0x60 ≤ (busAddr t).toNat ∧ (busAddr t).toNat < 0x80))) ∨
         (busWr t = true ∧ s.regs.seq ≠ .idle ∧ 0x20 ≤ (busAddr t).toNat ∧ (busAddr t).toNat < 0x60) ∨
         (busWr t = true ∧ s.regs.seq ≠ .idle ∧ busAddr t = 0x00#8 ∧
           ((busData t).getLsbD 0 = true ∨ (busData t).getLsbD 1 = true))))

/-- R57: no read changes anything but the response; a write changes CORE only at CTRL, in the KEY window and in the
MSG window. -/
def Obligations.ReadsHaveNoSideEffect : Prop :=
  ∀ (t : BusWord) (s : State),
    ∃ u a, exec (decodeBus t) s = .next u ∧ u.rsp = some a ∧
      (busWr t = false → u = { s with rsp := some a }) ∧
      (busAddr t ≠ 0x00#8 → ¬(0x20 ≤ (busAddr t).toNat ∧ (busAddr t).toNat < 0x60) →
        u = { s with rsp := some a })

/-- R240: the response of a cycle is that of the state at the start of the cycle, whatever the sequencer does at the
edge that ends it. -/
def Obligations.ResponsesShowTheStateAtTheStartOfTheCycle : Prop :=
  ∀ (s u : State) (c : ClockCycle) (rest : List ClockCycle) (t : BusWord), s.env = c :: rest → c.rst = false →
    c.req = some t → step s = .next u →
    ∃ v, exec (decodeBus t) s = .next v ∧ u.rsp = v.rsp

/-! ### The XOR unit, the block and the hash port -/

/-- R142, R143, R144: the two key blocks and the laws (a) to (e) of the XOR unit. -/
def Obligations.KeyBlocksAreTheKeyXoredWithThePads : Prop :=
  ∀ (key other : Words8) (i : Index),
    (innerKeyBlock key)[i] = key[i] ^^^ 0x36363636#32 ∧
    (outerKeyBlock key)[i] = key[i] ^^^ 0x5c5c5c5c#32 ∧
    (outerKeyBlock key)[i] = (innerKeyBlock key)[i] ^^^ 0x6a6a6a6a#32 ∧
    (innerKeyBlock key)[i] ≠ (outerKeyBlock key)[i] ∧
    (innerKeyBlock key)[i] ^^^ 0x36363636#32 = key[i] ∧
    (key[i] = other[i] →
      (innerKeyBlock key)[i] = (innerKeyBlock other)[i] ∧ (outerKeyBlock key)[i] = (outerKeyBlock other)[i]) ∧
    (∀ b : Fin 32,
      ((innerKeyBlock key)[i].getLsbD b.val ≠ (outerKeyBlock key)[i].getLsbD b.val ↔
        (b.val % 8 = 1 ∨ b.val % 8 = 3 ∨ b.val % 8 = 5 ∨ b.val % 8 = 6)))

/-- R146, R150: word j of a block is on bits [32j+31:32j] of `hreq_block`, and word j of a digest is on, and is read
from, bits [32j+31:32j] of `hrsp_digest`. The packings are definitions beside the state, which no step uses (log 18). -/
def Obligations.WordsStandInOrderOnTheFlatBuses : Prop :=
  (∀ (b : Block) (j : Fin 16), (packBlock b).extractLsb' (32 * j.val) 32 = b[j]) ∧
  (∀ (d : Digest) (j : Index), (packDigest d).extractLsb' (32 * j.val) 32 = d[j] ∧ digestWord (packDigest d) j = d[j])

/-- R151: a block is offered exactly in the REQ states, INNER_BLOCK and OUTER_BLOCK of R146, and has no value elsewhere
(log 20). An offered block is accepted at an edge where the primitive is ready and holds none (R153(a), log 11): it is
then in flight and no longer offered. Until then the same block stays offered. -/
def Obligations.HashRequestPortOffersTheBlockUntilAccepted : Prop :=
  (∀ s : State,
    (hreqValid s.regs = true ↔ (s.regs.seq = .innerReq ∨ s.regs.seq = .outerReq)) ∧
    (hreqValid s.regs = false → hreqBlock s.regs = none) ∧
    (s.regs.seq = .innerReq →
      hreqBlock s.regs = some (s.regs.key.map (fun k => k ^^^ 0x36363636#32) ++ s.regs.msg)) ∧
    (s.regs.seq = .outerReq →
      hreqBlock s.regs = some (s.regs.key.map (fun k => k ^^^ 0x5c5c5c5c#32) ++ s.regs.d))) ∧
  (∀ (s : State) (c : ClockCycle) (rest : List ClockCycle), s.env = c :: rest → c.rst = false →
    hreqValid s.regs = true →
    (s.hp = none → c.hreqReady = true →
      ∃ u, step s = .next u ∧ u.hp = hreqBlock s.regs ∧ hreqValid u.regs = false) ∧
    (c.hreqReady = false ∨ s.hp ≠ none →
      ∃ u, step s = .next u ∧ u.regs.seq = s.regs.seq ∧ hreqBlock u.regs = hreqBlock s.regs ∧ u.hp = s.hp))

/-- R147: at an edge without reset from a busy state KEY and MSG do not change, so both phases use one key, and D does
not change outside INNER_WAIT. Until `hreq_ready = 1` SEQ does not change in a REQ state, and the offered block does
not; nor does it change while SEQ stays in the REQ state for another reason. -/
def Obligations.OfferedBlockAndInputsAreStableWhileBusy : Prop :=
  ∀ s u : State, s.regs.seq ≠ .idle → (takeCycle s).1.rst = false → step s = .next u →
    u.regs.key = s.regs.key ∧ u.regs.msg = s.regs.msg ∧
    (s.regs.seq ≠ .innerWait → u.regs.d = s.regs.d) ∧
    (hreqValid s.regs = true → (takeCycle s).1.hreqReady = false →
      u.regs.seq = s.regs.seq ∧ hreqBlock u.regs = hreqBlock s.regs) ∧
    (hreqValid s.regs = true → u.regs.seq = s.regs.seq → hreqBlock u.regs = hreqBlock s.regs)

/-- R170: hash responses are ignored outside the WAIT states, and `hreq_ready` outside the REQ states. -/
def Obligations.HashPinsAreIgnoredOutsideTheirStates : Prop :=
  ∀ (s : State) (c : ClockCycle) (rest : List ClockCycle) (x y : Bool),
    (s.regs.seq ≠ .innerWait → s.regs.seq ≠ .outerWait →
      step { s with env := { c with hrspValid := x, hrspErr := y } :: rest } = step { s with env := c :: rest }) ∧
    (s.regs.seq ≠ .innerReq → s.regs.seq ≠ .outerReq →
      step { s with env := { c with hreqReady := x } :: rest } = step { s with env := c :: rest })

/-! ### Sequencer transitions -/

/-- R155, R156, R158, R161, R163: the idle and hold transitions change nothing. -/
def Obligations.HoldTransitionsChangeNothing : Prop :=
  ∀ (s : State) (hs he : Bool),
    (∀ e, seqS e = 0b000#3 → decodeSeq e = .seqIdle (seqHs e) (seqHe e)) ∧
    (s.regs.seq = .idle → exec (.seqIdle hs he) s = .next s) ∧
    (∀ e, seqS e = 0b001#3 → seqHs e = false → decodeSeq e = .seqInnerReqHold (seqHe e)) ∧
    (s.regs.seq = .innerReq → exec (.seqInnerReqHold he) s = .next s) ∧
    (∀ e, seqS e = 0b010#3 → seqHs e = false → decodeSeq e = .seqInnerWaitHold (seqHe e)) ∧
    (s.regs.seq = .innerWait → exec (.seqInnerWaitHold he) s = .next s) ∧
    (∀ e, seqS e = 0b011#3 → seqHs e = false → decodeSeq e = .seqOuterReqHold (seqHe e)) ∧
    (s.regs.seq = .outerReq → exec (.seqOuterReqHold he) s = .next s) ∧
    (∀ e, seqS e = 0b100#3 → seqHs e = false → decodeSeq e = .seqOuterWaitHold (seqHe e)) ∧
    (s.regs.seq = .outerWait → exec (.seqOuterWaitHold he) s = .next s)

/-- R157, R162: an issue hands the whole block to the hash primitive, word by word, and moves SEQ to the WAIT state;
nothing else changes. -/
def Obligations.IssueHandsTheBlockToTheHashPrimitive : Prop :=
  ∀ (s : State) (he : Bool),
    (∀ e, seqS e = 0b001#3 → seqHs e = true → decodeSeq e = .seqIssueInner (seqHe e)) ∧
    (s.regs.seq = .innerReq →
      ∃ u b, exec (.seqIssueInner he) s = .next u ∧
        (∀ j : Index, b[j.val] = s.regs.key[j] ^^^ 0x36363636#32 ∧
          b[8 + j.val]'(Nat.add_lt_add_left j.isLt 8) = s.regs.msg[j]) ∧
        u = { s with regs := { s.regs with seq := .innerWait }, hp := some b }) ∧
    (∀ e, seqS e = 0b011#3 → seqHs e = true → decodeSeq e = .seqIssueOuter (seqHe e)) ∧
    (s.regs.seq = .outerReq →
      ∃ u b, exec (.seqIssueOuter he) s = .next u ∧
        (∀ j : Index, b[j.val] = s.regs.key[j] ^^^ 0x5c5c5c5c#32 ∧
          b[8 + j.val]'(Nat.add_lt_add_left j.isLt 8) = s.regs.d[j]) ∧
        u = { s with regs := { s.regs with seq := .outerWait }, hp := some b })

/-- R159, R164: the digest of the block in flight goes to D in the inner phase and to R, with DONE, in the outer; SEQ
moves on, no block stays in flight, and nothing else changes. -/
def Obligations.CaptureStoresTheDigestOfTheBlockInFlight : Prop :=
  ∀ (s : State) (b : Block),
    (∀ e, seqS e = 0b010#3 → seqHs e = true → seqHe e = false → decodeSeq e = .seqCaptureInner) ∧
    (s.regs.seq = .innerWait → s.hp = some b →
      exec .seqCaptureInner s =
        .next { s with regs := { s.regs with d := Config.hashFn b, seq := .outerReq }, hp := none }) ∧
    (∀ e, seqS e = 0b100#3 → seqHs e = true → seqHe e = false → decodeSeq e = .seqCaptureOuter) ∧
    (s.regs.seq = .outerWait → s.hp = some b →
      exec .seqCaptureOuter s =
        .next { s with regs := { s.regs with r := Config.hashFn b, seq := .idle, done := true }, hp := none })

/-- The model's choice (log 10), for states R42 (vii) excludes: a capture with no block in flight completes and captures
some digest that no rule gives. -/
def Obligations.CaptureWithoutABlockStoresSomeDigest : Prop :=
  ∀ s : State, s.hp = none →
    (s.regs.seq = .innerWait →
      ∃ g n, exec .seqCaptureInner s =
        .next { s with regs := { s.regs with d := g, seq := .outerReq }, draws := n }) ∧
    (s.regs.seq = .outerWait →
      ∃ g n, exec .seqCaptureOuter s =
        .next { s with regs := { s.regs with r := g, seq := .idle, done := true }, draws := n })

/-- R160, R165: a hash failure enters the error state with code 3 and SEQ at IDLE; D, R, DONE and everything else
are unchanged, and no block stays in flight. -/
def Obligations.HashFailureEntersTheErrorState : Prop :=
  ∀ s : State,
    (∀ e, seqS e = 0b010#3 → seqHs e = true → seqHe e = true → decodeSeq e = .seqFailInner) ∧
    (s.regs.seq = .innerWait →
      exec .seqFailInner s =
        .next { s with regs := { s.regs with err := true, errCode := 0x3#4, seq := .idle }, hp := none }) ∧
    (∀ e, seqS e = 0b100#3 → seqHs e = true → seqHe e = true → decodeSeq e = .seqFailOuter) ∧
    (s.regs.seq = .outerWait →
      exec .seqFailOuter s =
        .next { s with regs := { s.regs with err := true, errCode := 0x3#4, seq := .idle }, hp := none })

/-- R166: an unused SEQ code goes to IDLE at the next edge and changes nothing else. -/
def Obligations.IllegalSequencerStatesRecoverToIdle : Prop :=
  ∀ (s : State) (hs he : Bool),
    (∀ e, seqS e = 0b101#3 → decodeSeq e = .seqIllegalStateA false (seqHs e) (seqHe e)) ∧
    (s.regs.seq = .unused5 →
      exec (.seqIllegalStateA false hs he) s = .next { s with regs := { s.regs with seq := .idle } }) ∧
    (∀ e, seqS e = 0b111#3 → decodeSeq e = .seqIllegalStateA true (seqHs e) (seqHe e)) ∧
    (s.regs.seq = .unused7 →
      exec (.seqIllegalStateA true hs he) s = .next { s with regs := { s.regs with seq := .idle } }) ∧
    (∀ e, seqS e = 0b110#3 → decodeSeq e = .seqIllegalStateB (seqHs e) (seqHe e)) ∧
    (s.regs.seq = .unused6 →
      exec (.seqIllegalStateB hs he) s = .next { s with regs := { s.regs with seq := .idle } })

/-- R29: at an edge without reset each state of SEQ goes only to these successors; none is skipped, and none leads from
the outer phase back to the inner. That each of them is taken is `Obligations.EveryListedSuccessorIsTaken`. -/
def Obligations.SequencerStatesHaveOnlyTheListedSuccessors : Prop :=
  ∀ s u : State, (takeCycle s).1.rst = false → step s = .next u →
    (s.regs.seq = .idle → u.regs.seq = .idle ∨ u.regs.seq = .innerReq) ∧
    (s.regs.seq = .innerReq → u.regs.seq = .innerReq ∨ u.regs.seq = .innerWait) ∧
    (s.regs.seq = .innerWait → u.regs.seq = .innerWait ∨ u.regs.seq = .outerReq ∨ u.regs.seq = .idle) ∧
    (s.regs.seq = .outerReq → u.regs.seq = .outerReq ∨ u.regs.seq = .outerWait) ∧
    (s.regs.seq = .outerWait → u.regs.seq = .outerWait ∨ u.regs.seq = .idle) ∧
    (s.regs.seq = .unused5 ∨ s.regs.seq = .unused6 ∨ s.regs.seq = .unused7 → u.regs.seq = .idle)

/-- R29, the other direction: where a block is in flight exactly in the WAIT states (R42 (vii)), each successor that R155
to R166 and START list is taken under some inputs of the cycle. From IDLE, INNER_REQ needs both masks complete (R102);
a failing response uses the default of HASH_CAN_FAIL (log 5). -/
def Obligations.EveryListedSuccessorIsTaken : Prop :=
  ∀ s : State, (s.hp.isSome = true ↔ (s.regs.seq = .innerWait ∨ s.regs.seq = .outerWait)) →
    (s.regs.seq = .idle → CanGoTo s .idle ∧ (s.regs.kwm = 0xFF#8 → s.regs.mwm = 0xFF#8 → CanGoTo s .innerReq)) ∧
    (s.regs.seq = .innerReq → CanGoTo s .innerReq ∧ CanGoTo s .innerWait) ∧
    (s.regs.seq = .innerWait → CanGoTo s .innerWait ∧ CanGoTo s .outerReq ∧ CanGoTo s .idle) ∧
    (s.regs.seq = .outerReq → CanGoTo s .outerReq ∧ CanGoTo s .outerWait) ∧
    (s.regs.seq = .outerWait → CanGoTo s .outerWait ∧ CanGoTo s .idle) ∧
    (s.regs.seq = .unused5 ∨ s.regs.seq = .unused6 ∨ s.regs.seq = .unused7 → CanGoTo s .idle)

/-- R170: a transition is taken only in its own state of SEQ; in any other state its operation answers and changes
nothing (log 8). -/
def Obligations.TransitionsAreTakenOnlyInTheirOwnState : Prop :=
  ∀ (e : SeqWord) (s : State), s.regs.seq ≠ SeqState.ofCode (seqS e) → exec (decodeSeq e) s = .next s

/-! ### Who writes what -/

/-- R183: R changes, and DONE goes from 0 to 1, only at SEQ_CAPTURE_OUTER (R also at CLEAR and reset); DONE goes from 1
to 0 only at START, CLEAR and reset; while DONE stays 1, R is constant. -/
def Obligations.MacChangesOnlyAtCaptureClearAndReset : Prop :=
  ∀ s u : State, s.Inv → step s = .next u →
    (u.regs.r ≠ s.regs.r →
      (takeCycle s).1.rst = true ∨
      decodeSeq (eventWord Config.hashCanFail (takeCycle s).1 s) = .seqCaptureOuter ∨
      ∃ t v, (takeCycle s).1.req = some t ∧ decodeBus t = .wrCtrl v ∧ v.getLsbD 1 = true ∧ s.regs.seq = .idle) ∧
    (s.regs.done = false → u.regs.done = true →
      decodeSeq (eventWord Config.hashCanFail (takeCycle s).1 s) = .seqCaptureOuter) ∧
    (s.regs.done = true → u.regs.done = false →
      (takeCycle s).1.rst = true ∨
      ∃ t v, (takeCycle s).1.req = some t ∧ decodeBus t = .wrCtrl v ∧
        (v.getLsbD 0 = true ∨ v.getLsbD 1 = true)) ∧
    (s.regs.done = true → u.regs.done = true → u.regs.r = s.regs.r)

/-- R24, R180: D changes only at SEQ_CAPTURE_INNER, CLEAR and reset; no hash response writes both D and R, and none
writes KEY or MSG. -/
def Obligations.InnerDigestChangesOnlyAtCaptureClearAndReset : Prop :=
  ∀ s u : State, step s = .next u →
    (u.regs.d ≠ s.regs.d →
      (takeCycle s).1.rst = true ∨
      decodeSeq (eventWord Config.hashCanFail (takeCycle s).1 s) = .seqCaptureInner ∨
      ∃ t v, (takeCycle s).1.req = some t ∧ decodeBus t = .wrCtrl v ∧ v.getLsbD 1 = true ∧ s.regs.seq = .idle) ∧
    ((takeCycle s).1.rst = false → s.regs.seq = .innerWait ∨ s.regs.seq = .outerWait →
      (u.regs.d = s.regs.d ∨ u.regs.r = s.regs.r) ∧ u.regs.key = s.regs.key ∧ u.regs.msg = s.regs.msg)

/-- R26, R27: a mask bit changes only by an accepted write of its word, which sets it, by CLEAR and by reset; no
computation changes a mask. -/
def Obligations.MaskBitsRecordAcceptedWrites : Prop :=
  ∀ (s u : State) (i : Index), (takeCycle s).1.rst = false → step s = .next u →
    (¬∃ t v, (takeCycle s).1.req = some t ∧ decodeBus t = .wrCtrl v ∧ v.getLsbD 1 = true ∧ s.regs.seq = .idle) →
    (u.regs.kwm.getLsbD i.val = true ↔
      s.regs.kwm.getLsbD i.val = true ∨
      ∃ t v, (takeCycle s).1.req = some t ∧ decodeBus t = .wrKey i v ∧ s.regs.seq = .idle) ∧
    (u.regs.mwm.getLsbD i.val = true ↔
      s.regs.mwm.getLsbD i.val = true ∨
      ∃ t v, (takeCycle s).1.req = some t ∧ decodeBus t = .wrMsg i v ∧ s.regs.seq = .idle)

/-- R33, R210: ERR goes from 1 to 0 only by an accepted START, by CLEAR or by reset. It goes from 0 to 1 only by a START
that an idle CORE refuses, which records code 1 or 2 by the masks, or by SEQ_FAIL_INNER or SEQ_FAIL_OUTER, which
record code 3; SEQ is IDLE afterwards. -/
def Obligations.ErrorStateIsEnteredAndLeftOnlyAsListed : Prop :=
  ∀ s u : State, step s = .next u →
    (s.regs.err = true → u.regs.err = false →
      (takeCycle s).1.rst = true ∨
      ∃ t v, (takeCycle s).1.req = some t ∧ decodeBus t = .wrCtrl v ∧ s.regs.seq = .idle ∧
        (v.getLsbD 1 = true ∨
         (v.getLsbD 0 = true ∧ s.regs.kwm = 0xFF#8 ∧ s.regs.mwm = 0xFF#8 ∧ u.regs.seq = .innerReq))) ∧
    (s.regs.err = false → u.regs.err = true →
      (takeCycle s).1.rst = false ∧ u.regs.seq = .idle ∧
      ((s.regs.seq = .idle ∧
        (∃ t v, (takeCycle s).1.req = some t ∧ decodeBus t = .wrCtrl v ∧ v.getLsbD 0 = true ∧ v.getLsbD 1 = false) ∧
        ((u.regs.errCode = 0x1#4 ∧ s.regs.kwm ≠ 0xFF#8) ∨
         (u.regs.errCode = 0x2#4 ∧ s.regs.kwm = 0xFF#8 ∧ s.regs.mwm ≠ 0xFF#8))) ∨
       (u.regs.errCode = 0x3#4 ∧
        ((s.regs.seq = .innerWait ∧
          decodeSeq (eventWord Config.hashCanFail (takeCycle s).1 s) = .seqFailInner) ∨
         (s.regs.seq = .outerWait ∧
          decodeSeq (eventWord Config.hashCanFail (takeCycle s).1 s) = .seqFailOuter)))))

/-- R154, R210: with HASH_CAN_FAIL = false no clock edge records a hash failure. -/
def Obligations.WithoutFailingHashNoFailureIsRecorded : Prop :=
  ∀ s u : State, clockEdge false s = .next u → u.regs.errCode = 0x3#4 → s.regs.errCode = 0x3#4

/-- R219: with no transaction, no reset and SEQ = IDLE, no state of CORE or of the hash primitive changes. -/
def Obligations.IdleIsQuiescent : Prop :=
  ∀ s u : State, s.regs.seq = .idle → (takeCycle s).1.rst = false → (takeCycle s).1.req = none → step s = .next u →
    u.regs = s.regs ∧ u.hp = s.hp

/-! ### Computations -/

/-- R147, R167, R168: one cycle of a computation keeps its stage or goes on to the next one of R167's order, with the
blocks and the inner digest R168 names; or, from OUTER_WAIT, it ends in success with R the MAC; or, from a WAIT state,
it ends in a hash failure. -/
def Obligations.EachCycleKeepsAdvancesOrEndsAComputation : Prop :=
  ∀ (key msg : Words8) (s u : State), Progress key msg s → (takeCycle s).1.rst = false → step s = .next u →
    (Progress key msg u ∧ SameOrNextStage s u) ∨
    (s.regs.seq = .outerWait ∧ u.regs.seq = .idle ∧ u.regs.done = true ∧ u.regs.err = false ∧
      u.regs.r = macOf key msg) ∨
    ((s.regs.seq = .innerWait ∨ s.regs.seq = .outerWait) ∧ u.regs.seq = .idle ∧ u.regs.done = false ∧
      u.regs.err = true ∧ u.regs.errCode = 0x3#4)

/-- R168, R169: take an accepted START on KEY and MSG, and any cycles without reset after it. When SEQ is back at IDLE
for the first time, either DONE = 1, ERR = 0 and R = H((KEY ^ opad) ++ H((KEY ^ ipad) ++ MSG)), or DONE = 0, ERR = 1
and the code is 3. -/
def Obligations.CompletedComputationHoldsTheMac : Prop :=
  ∀ (n : Nat) (s u : State) (c : ClockCycle) (rest : List ClockCycle) (t : BusWord) (v : Word),
    s.env = c :: rest → c.rst = false → c.req = some t → decodeBus t = .wrCtrl v → v.getLsbD 0 = true →
    v.getLsbD 1 = false → s.regs.seq = .idle → s.regs.kwm = 0xFF#8 → s.regs.mwm = 0xFF#8 → s.hp = none →
    NoReset rest → stepN (n + 1) s = .next u → u.regs.seq = .idle →
    (∀ k x, k < n → stepN (k + 1) s = .next x → x.regs.seq ≠ .idle) →
    (u.regs.done = true ∧ u.regs.err = false ∧ u.regs.r = macOf s.regs.key s.regs.msg) ∨
    (u.regs.done = false ∧ u.regs.err = true ∧ u.regs.errCode = 0x3#4)

/-- R169, R244: from every busy state that meets the invariants, with any finite schedule of inputs that does not
assert reset, CORE is back at IDLE at most four cycles after the schedule. That the primitive answers at once after the
schedule is the model's form of its fairness duty (log 2). -/
def Obligations.EveryComputationEnds : Prop :=
  ∀ s : State, s.Inv → s.regs.seq ≠ .idle → NoReset s.env →
    ∃ n u, n ≤ s.env.length + 4 ∧ stepN n s = .next u ∧ u.regs.seq = .idle

/-- R242: with `w` cycles before each acceptance and `l ≥ 1` edges from acceptance to response, a computation whose
START has just been accepted ends exactly `(w1 + 1) + l1 + (w2 + 1) + l2` edges later, is busy until then, and has
computed the MAC. -/
def Obligations.ComputationTakesTheNominalNumberOfEdges : Prop :=
  ∀ (w1 l1 w2 l2 : Nat) (s : State) (rest : List ClockCycle), 1 ≤ l1 → 1 ≤ l2 →
    Progress s.regs.key s.regs.msg s → s.regs.seq = .innerReq →
    s.env = hashCall w1 l1 ++ hashCall w2 l2 ++ rest →
    (∃ u, stepN ((w1 + 1) + l1 + (w2 + 1) + l2) s = .next u ∧ u.regs.seq = .idle ∧ u.regs.done = true ∧
      u.regs.r = macOf s.regs.key s.regs.msg) ∧
    (∀ k, k < (w1 + 1) + l1 + (w2 + 1) + l2 → ∃ x, stepN k s = .next x ∧ x.regs.seq ≠ .idle)

/-- R184, R239: while no START, CLEAR or reset comes, a shown MAC stays shown and does not change, whatever else the
host writes; so eight RESULT reads in those cycles return words of one MAC. -/
def Obligations.ShownMacStaysUntilACommandOrReset : Prop :=
  ∀ (n : Nat) (s u : State), s.Inv → s.regs.done = true →
    (∀ c ∈ s.env.take n, c.rst = false ∧ ¬c.commands) → stepN n s = .next u →
    u.regs.done = true ∧ u.regs.r = s.regs.r ∧
    ∀ i : Index, exec (.rdResult i) u = .next { u with rsp := some { rdata := s.regs.r[i], err := false } }

/-! ### Isolation -/

/-- R113, R181, R182: two states that differ in the key, the inner digest, the block in flight and a MAC that DONE does
not show answer every transaction alike, and still differ only so afterwards. -/
def Obligations.TransactionsRevealNeitherKeyNorInnerDigest : Prop :=
  ∀ (t : BusWord) (s1 s2 : State), SameButSecrets s1 s2 → SameShownMac s1 s2 →
    ∃ u1 u2, exec (decodeBus t) s1 = .next u1 ∧ exec (decodeBus t) s2 = .next u2 ∧ u1.rsp = u2.rsp ∧
      SameButSecrets u1 u2 ∧ SameShownMac u1 u2

/-- R21, R24, R113, R182: over a clock edge too, the secrets influence nothing but themselves and the MAC: flags, masks,
message, sequencer and timing are the same, and so is every response but that of a RESULT read with DONE = 1. -/
def Obligations.ClockEdgesRevealTheSecretsOnlyThroughTheMac : Prop :=
  ∀ s1 s2 u1 u2 : State, SameButSecrets s1 s2 → step s1 = .next u1 → step s2 = .next u2 →
    SameButSecrets u1 u2 ∧
    (u1.rsp = u2.rsp ∨
      ∃ t i, (takeCycle s1).1.req = some t ∧ decodeBus t = .rdResult i ∧ s1.regs.done = true)

/-! ### Atomic moves -/

/-- R61, R171: a clock edge from a used SEQ state does to CORE and to the block in flight what at most two atomic moves
do: nothing, a reset, a transaction, an issue, or a response. -/
def Obligations.ClockEdgeIsAtMostTwoAtomicMoves : Prop :=
  ∀ (canFail : Bool) (s u : State),
    (s.regs.seq = .idle ∨ s.regs.seq = .innerReq ∨ s.regs.seq = .innerWait ∨ s.regs.seq = .outerReq ∨
      s.regs.seq = .outerWait) →
    clockEdge canFail s = .next u →
    ∃ x y, (x = s ∨ AtomicMove canFail s x) ∧ (y = x ∨ AtomicMove canFail x y) ∧ SameCore y u

/-- R171, R243: every atomic move, a liberty of the host or of the hash primitive, is what some clock cycle does. -/
def Obligations.EveryAtomicMoveIsAClockEdge : Prop :=
  ∀ (canFail : Bool) (s x : State),
    (s.regs.seq = .idle ∨ s.regs.seq = .innerReq ∨ s.regs.seq = .innerWait ∨ s.regs.seq = .outerReq ∨
      s.regs.seq = .outerWait) →
    AtomicMove canFail s x →
    ∃ c u, clockEdge canFail { s with env := c :: s.env } = .next u ∧ SameCore u x

/-- R61: at an edge whose transition does not leave a busy state for IDLE, performing the transaction and the transition
in either order leaves the same registers and block in flight. The edges that end a computation are left out: there the
order matters, and the model follows R100 (log 9). -/
def Obligations.TransactionAndTransitionCommute : Prop :=
  ∀ (t : BusWord) (s ub us : State) (hs he : Bool), exec (decodeBus t) s = .next ub →
    exec (decodeSeq (packSeq s.regs.seq.code hs he)) s = .next us →
    (s.regs.seq = .idle ↔ us.regs.seq = .idle) →
    ∃ x y, exec (decodeSeq (packSeq s.regs.seq.code hs he)) ub = .next x ∧
      exec (decodeBus t) us = .next y ∧ SameCore x y
end

