-- ==== Sys2Proof/Laws/Decode.lean ====
section
/-! SUPPORT. Lemmas about the fields of operation words. -/

namespace Sys2Proof.Laws

theorem packBus_getLsbD (wr : Bool) (addr : Offset) (data : Word) (k : Nat) :
    (packBus wr addr data).getLsbD k =
      if k < 32 then data.getLsbD k else if k < 40 then addr.getLsbD (k - 32)
      else decide (k = 40) && wr := by
  simp only [packBus, BitVec.getLsbD_cast, BitVec.getLsbD_append, BitVec.getLsbD_ofBool]
  by_cases h1 : k < 32
  · simp [h1]
  · by_cases h2 : k < 40
    · simp [h1, h2, show k - 32 < 8 by omega]
    · simp [h1, h2, show ¬(k - 32 < 8) by omega]
      congr 1
      simp only [decide_eq_decide]
      omega

@[simp] theorem busWr_packBus (wr : Bool) (addr : Offset) (data : Word) : busWr (packBus wr addr data) = wr := by
  rw [busWr, packBus_getLsbD]
  simp

@[simp] theorem busAddr_packBus (wr : Bool) (addr : Offset) (data : Word) :
    busAddr (packBus wr addr data) = addr := by
  apply BitVec.eq_of_getLsbD_eq
  intro k hk
  simp [busAddr, packBus_getLsbD, hk, show 32 + k < 40 by omega]

@[simp] theorem busData_packBus (wr : Bool) (addr : Offset) (data : Word) :
    busData (packBus wr addr data) = data := by
  apply BitVec.eq_of_getLsbD_eq
  intro k hk
  simp [busData, packBus_getLsbD, hk]

/-- A BUS word is its three fields. -/
@[simp] theorem packBus_fields (t : BusWord) : packBus (busWr t) (busAddr t) (busData t) = t := by
  apply BitVec.eq_of_getLsbD_eq
  intro k hk
  rw [packBus_getLsbD]
  split
  · simp [busData, *]
  · split
    · rw [show t.getLsbD k = t.getLsbD (32 + (k - 32)) by congr 1; omega]
      simp [busAddr, show k - 32 < 8 by omega]
    · have : k = 40 := by omega
      subst this
      simp [busWr]

@[simp] theorem seqS_packSeq (s : BitVec 3) (hs he : Bool) : seqS (packSeq s hs he) = s := by
  revert s hs he; decide

@[simp] theorem seqHs_packSeq (s : BitVec 3) (hs he : Bool) : seqHs (packSeq s hs he) = hs := by
  revert s hs he; decide

@[simp] theorem seqHe_packSeq (s : BitVec 3) (hs he : Bool) : seqHe (packSeq s hs he) = he := by
  revert s hs he; decide

/-- A SEQ word is its three fields. -/
@[simp] theorem packSeq_fields (e : SeqWord) : packSeq (seqS e) (seqHs e) (seqHe e) = e := by
  revert e; decide

@[simp] theorem decodeBus_packBus (wr : Bool) (addr : Offset) (data : Word) :
    decodeBus (packBus wr addr data) = decodeFields wr addr data := by simp [decodeBus]

@[simp] theorem decodeSeq_packSeq (s : BitVec 3) (hs he : Bool) :
    decodeSeq (packSeq s hs he) = decodeEvent s hs he := by simp [decodeSeq]

/-- The offset of a window word is aligned, in its window, and has its index. -/
theorem keyOffset_facts (i : Index) : isMisalignedA (keyOffset i) = false ∧ isMisalignedB (keyOffset i) = false ∧
    isReservedB (keyOffset i) = false ∧ isReservedC (keyOffset i) = false ∧ windowOf (keyOffset i) = 1#3 ∧
    wordIndex (keyOffset i) = i := by
  revert i; decide

theorem msgOffset_facts (i : Index) : isMisalignedA (msgOffset i) = false ∧ isMisalignedB (msgOffset i) = false ∧
    isReservedB (msgOffset i) = false ∧ isReservedC (msgOffset i) = false ∧ windowOf (msgOffset i) = 2#3 ∧
    wordIndex (msgOffset i) = i := by
  revert i; decide

theorem resultOffset_facts (i : Index) : isMisalignedA (resultOffset i) = false ∧
    isMisalignedB (resultOffset i) = false ∧ isReservedB (resultOffset i) = false ∧
    isReservedC (resultOffset i) = false ∧ windowOf (resultOffset i) = 3#3 ∧ wordIndex (resultOffset i) = i := by
  revert i; decide

/-- An offset is misaligned, reserved, or of a register, and R75's order gives one operation for each. -/
theorem decodeFields_key (wr : Bool) (i : Index) (data : Word) :
    decodeFields wr (keyOffset i) data = if wr then .wrKey i data else .rdKey i := by
  revert i
  cases wr <;> intro i <;> fin_cases i <;> rfl

theorem decodeFields_msg (wr : Bool) (i : Index) (data : Word) :
    decodeFields wr (msgOffset i) data = if wr then .wrMsg i data else .rdMsg i := by
  revert i
  cases wr <;> intro i <;> fin_cases i <;> rfl

theorem decodeFields_result (wr : Bool) (i : Index) (data : Word) :
    decodeFields wr (resultOffset i) data = if wr then .wrResult i data else .rdResult i := by
  revert i
  cases wr <;> intro i <;> fin_cases i <;> rfl

theorem decodeFields_isBus (wr : Bool) (addr : Offset) (data : Word) : (decodeFields wr addr data).isBus = true := by
  unfold decodeFields decodeRegister
  simp only [apply_ite Instr.isBus]
  simp only [Instr.isBus, encode, ite_self]

/-- A BUS word decodes to a BUS operation. -/
theorem decodeBus_isBus (t : BusWord) : (decodeBus t).isBus = true := decodeFields_isBus _ _ _

/-- A SEQ word decodes to a SEQ operation. -/
theorem decodeSeq_isSeq (e : SeqWord) : (decodeSeq e).isBus = false := by
  revert e; decide

/-! ### Masks and offsets -/

/-- Masking a word with a mask whose DATA bits are 0 (R76). -/
theorem packBus_and (wr wr' : Bool) (a a' : Offset) (d : Word) :
    packBus wr a d &&& packBus wr' a' 0#32 = packBus (wr && wr') (a &&& a') 0#32 := by
  apply BitVec.eq_of_getLsbD_eq
  intro k hk
  rw [BitVec.getLsbD_and]
  simp only [packBus_getLsbD, BitVec.getLsbD_and]
  split
  · simp
  · split
    · rfl
    · cases wr <;> cases wr' <;> simp

theorem packBus_inj (wr wr' : Bool) (a a' : Offset) (d d' : Word) :
    packBus wr a d = packBus wr' a' d' ↔ wr = wr' ∧ a = a' ∧ d = d' := by
  constructor
  · intro h
    exact ⟨by simpa using congrArg busWr h, by simpa using congrArg busAddr h, by simpa using congrArg busData h⟩
  · rintro ⟨rfl, rfl, rfl⟩
    rfl

/-- A row with DATA bits 0 holds of a word by WR and ADDR alone. -/
theorem holds_packBus (r : TableRow 41) (hm : busData r.mask = 0#32) (hp : busData r.pattern = 0#32) (wr : Bool)
    (a : Offset) (d : Word) : r.holds (packBus wr a d) =
      decide ((wr && busWr r.mask) = busWr r.pattern ∧ (a &&& busAddr r.mask) = busAddr r.pattern) := by
  unfold TableRow.holds
  rw [← packBus_fields r.mask, ← packBus_fields r.pattern]
  simp only [hm, hp, packBus_and, packBus_inj, busWr_packBus, busAddr_packBus, and_true]

theorem isReservedB_facts (a : Offset) (h : isReservedB a = true) :
    isMisalignedA a = false ∧ isMisalignedB a = false ∧ a ≠ 0x14#8 := by
  revert a; decide

theorem isReservedC_facts (a : Offset) (h : isReservedC a = true) :
    isMisalignedA a = false ∧ isMisalignedB a = false ∧ a ≠ 0x14#8 ∧ isReservedB a = false := by
  revert a; decide

theorem isMisalignedB_facts (a : Offset) (h : isMisalignedB a = true) : isMisalignedA a = false := by
  revert a; decide

theorem carriedData_of_canonical (wr : Bool) (d : Word) (h : readCarriesNoData wr d = true) :
    carriedData wr d = d := by
  cases wr <;> simp_all [readCarriesNoData, carriedData]

/-- Every offset is misaligned, reserved, a single register, or a word of a window (spec/20_memory.md R51). -/
theorem offset_cases (a : Offset) :
    isMisalignedA a = true ∨ isMisalignedB a = true ∨ a = 0x14#8 ∨ isReservedB a = true ∨ isReservedC a = true ∨
    a = 0x00#8 ∨ a = 0x04#8 ∨ a = 0x08#8 ∨ a = 0x0C#8 ∨ a = 0x10#8 ∨ (∃ i, a = keyOffset i) ∨
    (∃ i, a = msgOffset i) ∨ (∃ i, a = resultOffset i) := by
  revert a; decide

end Sys2Proof.Laws
end

