-- ==== Sys2Proof/Laws/State.lean ====
section
/-! SUPPORT. What each update of the state leaves in each field, true by unfolding. -/

namespace Sys2Proof.Laws

open Sys2Proof.Machine

/-! ### respond -/

@[simp] theorem respond_regs (v : Word) (s : State) : (respond v s).regs = s.regs := rfl
@[simp] theorem respond_hp (v : Word) (s : State) : (respond v s).hp = s.hp := rfl
@[simp] theorem respond_env (v : Word) (s : State) : (respond v s).env = s.env := rfl
@[simp] theorem respond_draws (v : Word) (s : State) : (respond v s).draws = s.draws := rfl
@[simp] theorem respond_rsp (v : Word) (s : State) : (respond v s).rsp = some ⟨v, false⟩ := rfl

/-! ### busError -/

@[simp] theorem busError_regs (a : Offset) (s : State) : (busError a s).regs = s.regs := rfl
@[simp] theorem busError_hp (a : Offset) (s : State) : (busError a s).hp = s.hp := rfl
@[simp] theorem busError_env (a : Offset) (s : State) : (busError a s).env = s.env := rfl
@[simp] theorem busError_draws (a : Offset) (s : State) : (busError a s).draws = s.draws := rfl
@[simp] theorem busError_rsp (a : Offset) (s : State) : (busError a s).rsp = some ⟨0#32, true⟩ := rfl

/-! ### raiseEngineError -/

@[simp] theorem raiseEngineError_key (c : BitVec 4) (x : Regs) : (raiseEngineError c x).key = x.key := rfl
@[simp] theorem raiseEngineError_msg (c : BitVec 4) (x : Regs) : (raiseEngineError c x).msg = x.msg := rfl
@[simp] theorem raiseEngineError_d (c : BitVec 4) (x : Regs) : (raiseEngineError c x).d = x.d := rfl
@[simp] theorem raiseEngineError_r (c : BitVec 4) (x : Regs) : (raiseEngineError c x).r = x.r := rfl
@[simp] theorem raiseEngineError_kwm (c : BitVec 4) (x : Regs) : (raiseEngineError c x).kwm = x.kwm := rfl
@[simp] theorem raiseEngineError_mwm (c : BitVec 4) (x : Regs) : (raiseEngineError c x).mwm = x.mwm := rfl
@[simp] theorem raiseEngineError_seq (c : BitVec 4) (x : Regs) : (raiseEngineError c x).seq = .idle := rfl
@[simp] theorem raiseEngineError_done (c : BitVec 4) (x : Regs) : (raiseEngineError c x).done = x.done := rfl
@[simp] theorem raiseEngineError_err (c : BitVec 4) (x : Regs) : (raiseEngineError c x).err = true := rfl
@[simp] theorem raiseEngineError_errCode (c : BitVec 4) (x : Regs) : (raiseEngineError c x).errCode = c := rfl

/-! ### leaveError -/

@[simp] theorem leaveError_key (x : Regs) : (leaveError x).key = x.key := rfl
@[simp] theorem leaveError_msg (x : Regs) : (leaveError x).msg = x.msg := rfl
@[simp] theorem leaveError_d (x : Regs) : (leaveError x).d = x.d := rfl
@[simp] theorem leaveError_r (x : Regs) : (leaveError x).r = x.r := rfl
@[simp] theorem leaveError_kwm (x : Regs) : (leaveError x).kwm = x.kwm := rfl
@[simp] theorem leaveError_mwm (x : Regs) : (leaveError x).mwm = x.mwm := rfl
@[simp] theorem leaveError_seq (x : Regs) : (leaveError x).seq = x.seq := rfl
@[simp] theorem leaveError_done (x : Regs) : (leaveError x).done = x.done := rfl
@[simp] theorem leaveError_err (x : Regs) : (leaveError x).err = false := rfl
@[simp] theorem leaveError_errCode (x : Regs) : (leaveError x).errCode = 0x0#4 := rfl

/-! ### writeKey -/

@[simp] theorem writeKey_key (i : Index) (v : Word) (x : Regs) : (writeKey i v x).key = x.key.set i.val v := rfl
@[simp] theorem writeKey_msg (i : Index) (v : Word) (x : Regs) : (writeKey i v x).msg = x.msg := rfl
@[simp] theorem writeKey_d (i : Index) (v : Word) (x : Regs) : (writeKey i v x).d = x.d := rfl
@[simp] theorem writeKey_r (i : Index) (v : Word) (x : Regs) : (writeKey i v x).r = x.r := rfl
@[simp] theorem writeKey_kwm (i : Index) (v : Word) (x : Regs) : (writeKey i v x).kwm = x.kwm ||| (1#8 <<< i.val) := rfl
@[simp] theorem writeKey_mwm (i : Index) (v : Word) (x : Regs) : (writeKey i v x).mwm = x.mwm := rfl
@[simp] theorem writeKey_seq (i : Index) (v : Word) (x : Regs) : (writeKey i v x).seq = x.seq := rfl
@[simp] theorem writeKey_done (i : Index) (v : Word) (x : Regs) : (writeKey i v x).done = x.done := rfl
@[simp] theorem writeKey_err (i : Index) (v : Word) (x : Regs) : (writeKey i v x).err = x.err := rfl
@[simp] theorem writeKey_errCode (i : Index) (v : Word) (x : Regs) : (writeKey i v x).errCode = x.errCode := rfl

/-! ### writeMsg -/

@[simp] theorem writeMsg_key (i : Index) (v : Word) (x : Regs) : (writeMsg i v x).key = x.key := rfl
@[simp] theorem writeMsg_msg (i : Index) (v : Word) (x : Regs) : (writeMsg i v x).msg = x.msg.set i.val v := rfl
@[simp] theorem writeMsg_d (i : Index) (v : Word) (x : Regs) : (writeMsg i v x).d = x.d := rfl
@[simp] theorem writeMsg_r (i : Index) (v : Word) (x : Regs) : (writeMsg i v x).r = x.r := rfl
@[simp] theorem writeMsg_kwm (i : Index) (v : Word) (x : Regs) : (writeMsg i v x).kwm = x.kwm := rfl
@[simp] theorem writeMsg_mwm (i : Index) (v : Word) (x : Regs) : (writeMsg i v x).mwm = x.mwm ||| (1#8 <<< i.val) := rfl
@[simp] theorem writeMsg_seq (i : Index) (v : Word) (x : Regs) : (writeMsg i v x).seq = x.seq := rfl
@[simp] theorem writeMsg_done (i : Index) (v : Word) (x : Regs) : (writeMsg i v x).done = x.done := rfl
@[simp] theorem writeMsg_err (i : Index) (v : Word) (x : Regs) : (writeMsg i v x).err = x.err := rfl
@[simp] theorem writeMsg_errCode (i : Index) (v : Word) (x : Regs) : (writeMsg i v x).errCode = x.errCode := rfl

/-! ### clearAction -/

@[simp] theorem clearAction_key (x : Regs) : (clearAction x).key = zeros8 := rfl
@[simp] theorem clearAction_msg (x : Regs) : (clearAction x).msg = zeros8 := rfl
@[simp] theorem clearAction_d (x : Regs) : (clearAction x).d = zeros8 := rfl
@[simp] theorem clearAction_r (x : Regs) : (clearAction x).r = zeros8 := rfl
@[simp] theorem clearAction_kwm (x : Regs) : (clearAction x).kwm = 0x00#8 := rfl
@[simp] theorem clearAction_mwm (x : Regs) : (clearAction x).mwm = 0x00#8 := rfl
@[simp] theorem clearAction_seq (x : Regs) : (clearAction x).seq = x.seq := rfl
@[simp] theorem clearAction_done (x : Regs) : (clearAction x).done = false := rfl
@[simp] theorem clearAction_err (x : Regs) : (clearAction x).err = false := rfl
@[simp] theorem clearAction_errCode (x : Regs) : (clearAction x).errCode = 0x0#4 := rfl

/-! ### routeDigest, inner phase -/

@[simp] theorem routeInner_key (dg : Digest) (x : Regs) : (routeDigest .inner dg x).key = x.key := rfl
@[simp] theorem routeInner_msg (dg : Digest) (x : Regs) : (routeDigest .inner dg x).msg = x.msg := rfl
@[simp] theorem routeInner_d (dg : Digest) (x : Regs) : (routeDigest .inner dg x).d = dg := rfl
@[simp] theorem routeInner_r (dg : Digest) (x : Regs) : (routeDigest .inner dg x).r = x.r := rfl
@[simp] theorem routeInner_kwm (dg : Digest) (x : Regs) : (routeDigest .inner dg x).kwm = x.kwm := rfl
@[simp] theorem routeInner_mwm (dg : Digest) (x : Regs) : (routeDigest .inner dg x).mwm = x.mwm := rfl
@[simp] theorem routeInner_seq (dg : Digest) (x : Regs) : (routeDigest .inner dg x).seq = x.seq := rfl
@[simp] theorem routeInner_done (dg : Digest) (x : Regs) : (routeDigest .inner dg x).done = x.done := rfl
@[simp] theorem routeInner_err (dg : Digest) (x : Regs) : (routeDigest .inner dg x).err = x.err := rfl
@[simp] theorem routeInner_errCode (dg : Digest) (x : Regs) : (routeDigest .inner dg x).errCode = x.errCode := rfl

/-! ### routeDigest, outer phase -/

@[simp] theorem routeOuter_key (dg : Digest) (x : Regs) : (routeDigest .outer dg x).key = x.key := rfl
@[simp] theorem routeOuter_msg (dg : Digest) (x : Regs) : (routeDigest .outer dg x).msg = x.msg := rfl
@[simp] theorem routeOuter_d (dg : Digest) (x : Regs) : (routeDigest .outer dg x).d = x.d := rfl
@[simp] theorem routeOuter_r (dg : Digest) (x : Regs) : (routeDigest .outer dg x).r = dg := rfl
@[simp] theorem routeOuter_kwm (dg : Digest) (x : Regs) : (routeDigest .outer dg x).kwm = x.kwm := rfl
@[simp] theorem routeOuter_mwm (dg : Digest) (x : Regs) : (routeDigest .outer dg x).mwm = x.mwm := rfl
@[simp] theorem routeOuter_seq (dg : Digest) (x : Regs) : (routeDigest .outer dg x).seq = x.seq := rfl
@[simp] theorem routeOuter_done (dg : Digest) (x : Regs) : (routeDigest .outer dg x).done = x.done := rfl
@[simp] theorem routeOuter_err (dg : Digest) (x : Regs) : (routeDigest .outer dg x).err = x.err := rfl
@[simp] theorem routeOuter_errCode (dg : Digest) (x : Regs) : (routeDigest .outer dg x).errCode = x.errCode := rfl

/-! ### acceptBlock -/

@[simp] theorem acceptBlock_regs (b : Block) (s : State) : (acceptBlock b s).regs = s.regs := rfl
@[simp] theorem acceptBlock_hp (b : Block) (s : State) : (acceptBlock b s).hp = some b := rfl
@[simp] theorem acceptBlock_env (b : Block) (s : State) : (acceptBlock b s).env = s.env := rfl
@[simp] theorem acceptBlock_draws (b : Block) (s : State) : (acceptBlock b s).draws = s.draws := rfl
@[simp] theorem acceptBlock_rsp (b : Block) (s : State) : (acceptBlock b s).rsp = s.rsp := rfl

/-! ### endResponse -/

@[simp] theorem endResponse_regs (s : State) : (endResponse s).regs = s.regs := rfl
@[simp] theorem endResponse_hp (s : State) : (endResponse s).hp = none := rfl
@[simp] theorem endResponse_env (s : State) : (endResponse s).env = s.env := rfl
@[simp] theorem endResponse_draws (s : State) : (endResponse s).draws = if s.hp.isNone then s.draws + 1 else s.draws := rfl
@[simp] theorem endResponse_rsp (s : State) : (endResponse s).rsp = s.rsp := rfl

end Sys2Proof.Laws
end

