-- ==== Sys2Proof/Laws/Ops.lean ====
section
/-! SUPPORT. What each shared operation can do, said once. -/

namespace Sys2Proof.Laws

open Sys2Proof.Machine

/-- SEQ codes tell SEQ states apart. -/
@[simp] theorem ofCode_code (q : SeqState) : SeqState.ofCode q.code = q := by cases q <;> rfl

@[simp] theorem code_ofCode (c : BitVec 3) : (SeqState.ofCode c).code = c := by
  revert c; decide

theorem busy_iff (x : Regs) : x.busy = true ↔ x.seq ≠ .idle := by simp [Regs.busy]

theorem not_busy_iff (x : Regs) : x.busy = false ↔ x.seq = .idle := by simp [Regs.busy]

/-- A transition is taken exactly when its condition holds. -/
theorem whenSeq_eq_self_or (want : SeqState) (f : State → State) (s : State) :
    (s.regs.seq = want ∧ whenSeq want f s = f s) ∨ (s.regs.seq ≠ want ∧ whenSeq want f s = s) := by
  by_cases h : s.regs.seq = want <;> simp [whenSeq, h]

/-- Mask bit i after `KWM[i] <- 1`. -/
theorem mask_set_getLsbD (m : BitVec 8) (i j : Index) :
    (m ||| (1#8 <<< i.val)).getLsbD j.val = (m.getLsbD j.val || decide (j = i)) := by
  have h : (1#8 <<< i.val).getLsbD j.val = decide (j = i) := by revert i j; decide
  rw [BitVec.getLsbD_or, h]

/-- START_ACTION refuses with code 1 or 2, or begins the computation (R102). -/
theorem startAction_cases (x : Regs) :
    (x.kwm ≠ 0xFF#8 ∧ startAction x = { x with done := false, err := true, errCode := 1#4, seq := .idle }) ∨
    (x.kwm = 0xFF#8 ∧ x.mwm ≠ 0xFF#8 ∧
      startAction x = { x with done := false, err := true, errCode := 2#4, seq := .idle }) ∨
    (x.kwm = 0xFF#8 ∧ x.mwm = 0xFF#8 ∧
      startAction x = { x with done := false, err := false, errCode := 0#4, seq := .innerReq }) := by
  by_cases hk : x.kwm = 0xFF#8
  · by_cases hm : x.mwm = 0xFF#8
    · exact .inr (.inr ⟨hk, hm, by simp [startAction, Regs.keyComplete, Regs.msgComplete, hk, hm, leaveError]⟩)
    · exact .inr (.inl ⟨hk, hm, by
        simp [startAction, Regs.keyComplete, Regs.msgComplete, hk, hm, raiseEngineError, invalidMessageLength]⟩)
  · exact .inl ⟨hk, by simp [startAction, Regs.keyComplete, hk, raiseEngineError, invalidKeyLength]⟩

/-- Every operation answers a next state, in every state: CORE has no traps (R200). -/
theorem exec_answers (i : Instr) (s : State) : ∃ t, exec i s = .next t := by
  cases i
  case wrCtrl data =>
    simp only [exec, execWrCtrl]
    split
    · exact ⟨_, rfl⟩
    · split
      · exact ⟨_, rfl⟩
      · split
        · exact ⟨_, rfl⟩
        · split <;> exact ⟨_, rfl⟩
  all_goals exact ⟨_, rfl⟩

end Sys2Proof.Laws
end

