-- ==== Sys2Proof/Laws/PerInstr.lean ====
section
/-! SUPPORT. A statement made of every instruction, one lemma for each constructor. -/

namespace Sys2Proof.Laws

/-- A BUS word whose WR and ADDR are those of a row of the BUS map is in that row (spec/30_encoding.md R76). -/
theorem inRowNamed_bus (r : TableRow 41) (hr : r ∈ busTable) (wr : Bool) (a : Offset) (d : Word)
    (h : (wr && busWr r.mask) = busWr r.pattern ∧ (a &&& busAddr r.mask) = busAddr r.pattern) :
    (OpWord.bus (packBus wr a d)).inRowNamed r.mnemonic = true := by
  have hz : ∀ r ∈ busTable, busData r.mask = 0#32 ∧ busData r.pattern = 0#32 := by decide
  have hh : r.holds (packBus wr a d) = true := by
    rw [holds_packBus r (hz r hr).1 (hz r hr).2]
    exact decide_eq_true h
  exact List.any_eq_true.mpr ⟨r, hr, by simp [hh]⟩

end Sys2Proof.Laws

namespace Sys2Proof.Laws.EncodesInRow

/-- The word of a well-formed instruction is in the row of the opcode map that bears its mnemonic. -/
def Statement (i : Instr) : Prop := i.wellFormed = true → (encode i).inRowNamed i.mnemonic = true

theorem wrCtrl (data : Word) : Statement (.wrCtrl data) := fun _ =>
  inRowNamed_bus ⟨"WR_CTRL", 0x10000000000#41, 0x1FF00000000#41⟩ (by decide)
    true 0x00#8 data (by decide)

theorem rdCtrl : Statement .rdCtrl := fun _ =>
  inRowNamed_bus ⟨"RD_CTRL", 0x00000000000#41, 0x1FF00000000#41⟩ (by decide)
    false 0x00#8 0#32 (by decide)

theorem rdStatus : Statement .rdStatus := fun _ =>
  inRowNamed_bus ⟨"RD_STATUS", 0x00400000000#41, 0x1FF00000000#41⟩ (by decide)
    false 0x04#8 0#32 (by decide)

theorem wrStatus (data : Word) : Statement (.wrStatus data) := fun _ =>
  inRowNamed_bus ⟨"WR_STATUS", 0x10400000000#41, 0x1FF00000000#41⟩ (by decide)
    true 0x04#8 data (by decide)

theorem rdWmask : Statement .rdWmask := fun _ =>
  inRowNamed_bus ⟨"RD_WMASK", 0x00800000000#41, 0x1FF00000000#41⟩ (by decide)
    false 0x08#8 0#32 (by decide)

theorem wrWmask (data : Word) : Statement (.wrWmask data) := fun _ =>
  inRowNamed_bus ⟨"WR_WMASK", 0x10800000000#41, 0x1FF00000000#41⟩ (by decide)
    true 0x08#8 data (by decide)

theorem rdIpad : Statement .rdIpad := fun _ =>
  inRowNamed_bus ⟨"RD_IPAD", 0x00C00000000#41, 0x1FF00000000#41⟩ (by decide)
    false 0x0C#8 0#32 (by decide)

theorem wrIpad (data : Word) : Statement (.wrIpad data) := fun _ =>
  inRowNamed_bus ⟨"WR_IPAD", 0x10C00000000#41, 0x1FF00000000#41⟩ (by decide)
    true 0x0C#8 data (by decide)

theorem rdOpad : Statement .rdOpad := fun _ =>
  inRowNamed_bus ⟨"RD_OPAD", 0x01000000000#41, 0x1FF00000000#41⟩ (by decide)
    false 0x10#8 0#32 (by decide)

theorem wrOpad (data : Word) : Statement (.wrOpad data) := fun _ =>
  inRowNamed_bus ⟨"WR_OPAD", 0x11000000000#41, 0x1FF00000000#41⟩ (by decide)
    true 0x10#8 data (by decide)

theorem rdKey (i : Index) : Statement (.rdKey i) := fun _ =>
  inRowNamed_bus ⟨"RD_KEY", 0x02000000000#41, 0x1E300000000#41⟩ (by decide)
    false (keyOffset i) 0#32 (by clear * - i; revert i; decide)

theorem wrKey (i : Index) (data : Word) : Statement (.wrKey i data) := fun _ =>
  inRowNamed_bus ⟨"WR_KEY", 0x12000000000#41, 0x1E300000000#41⟩ (by decide)
    true (keyOffset i) data (by clear * - i; revert i; decide)

theorem rdMsg (i : Index) : Statement (.rdMsg i) := fun _ =>
  inRowNamed_bus ⟨"RD_MSG", 0x04000000000#41, 0x1E300000000#41⟩ (by decide)
    false (msgOffset i) 0#32 (by clear * - i; revert i; decide)

theorem wrMsg (i : Index) (data : Word) : Statement (.wrMsg i data) := fun _ =>
  inRowNamed_bus ⟨"WR_MSG", 0x14000000000#41, 0x1E300000000#41⟩ (by decide)
    true (msgOffset i) data (by clear * - i; revert i; decide)

theorem rdResult (i : Index) : Statement (.rdResult i) := fun _ =>
  inRowNamed_bus ⟨"RD_RESULT", 0x06000000000#41, 0x1E300000000#41⟩ (by decide)
    false (resultOffset i) 0#32 (by clear * - i; revert i; decide)

theorem wrResult (i : Index) (data : Word) : Statement (.wrResult i data) := fun _ =>
  inRowNamed_bus ⟨"WR_RESULT", 0x16000000000#41, 0x1E300000000#41⟩ (by decide)
    true (resultOffset i) data (by clear * - i; revert i; decide)

theorem busReservedA (wr : Bool) (data : Word) : Statement (.busReservedA wr data) := fun _ =>
  inRowNamed_bus ⟨"BUS_RESERVED__a", 0x01400000000#41, 0x0FF00000000#41⟩ (by decide)
    wr 0x14#8 data (by clear * - wr; revert wr; decide)

theorem busReservedB (wr : Bool) (addr : Offset) (data : Word) : Statement (.busReservedB wr addr data) := fun h =>
  inRowNamed_bus ⟨"BUS_RESERVED__b", 0x01800000000#41, 0x0FB00000000#41⟩ (by decide)
    wr addr data (by
    have ha : isReservedB addr = true := (Bool.and_eq_true_iff.mp h).1
    clear h
    revert wr addr
    decide)

theorem busReservedC (wr : Bool) (addr : Offset) (data : Word) : Statement (.busReservedC wr addr data) := fun h =>
  inRowNamed_bus ⟨"BUS_RESERVED__c", 0x08000000000#41, 0x08300000000#41⟩ (by decide)
    wr addr data (by
    have ha : isReservedC addr = true := (Bool.and_eq_true_iff.mp h).1
    clear h
    revert wr addr
    decide)

theorem busMisalignedA (wr : Bool) (addr : Offset) (data : Word) : Statement (.busMisalignedA wr addr data) := fun h =>
  inRowNamed_bus ⟨"BUS_MISALIGNED__a", 0x00100000000#41, 0x00100000000#41⟩ (by decide)
    wr addr data (by
    have ha : isMisalignedA addr = true := (Bool.and_eq_true_iff.mp h).1
    clear h
    revert wr addr
    decide)

theorem busMisalignedB (wr : Bool) (addr : Offset) (data : Word) : Statement (.busMisalignedB wr addr data) := fun h =>
  inRowNamed_bus ⟨"BUS_MISALIGNED__b", 0x00200000000#41, 0x00300000000#41⟩ (by decide)
    wr addr data (by
    have ha : isMisalignedB addr = true := (Bool.and_eq_true_iff.mp h).1
    clear h
    revert wr addr
    decide)

theorem seqIdle (hs he : Bool) : Statement (.seqIdle hs he) := fun _ => by revert hs he; decide

theorem seqInnerReqHold (he : Bool) : Statement (.seqInnerReqHold he) := fun _ => by revert he; decide

theorem seqIssueInner (he : Bool) : Statement (.seqIssueInner he) := fun _ => by revert he; decide

theorem seqInnerWaitHold (he : Bool) : Statement (.seqInnerWaitHold he) := fun _ => by revert he; decide

theorem seqCaptureInner : Statement .seqCaptureInner := fun _ => by decide

theorem seqFailInner : Statement .seqFailInner := fun _ => by decide

theorem seqOuterReqHold (he : Bool) : Statement (.seqOuterReqHold he) := fun _ => by revert he; decide

theorem seqIssueOuter (he : Bool) : Statement (.seqIssueOuter he) := fun _ => by revert he; decide

theorem seqOuterWaitHold (he : Bool) : Statement (.seqOuterWaitHold he) := fun _ => by revert he; decide

theorem seqCaptureOuter : Statement .seqCaptureOuter := fun _ => by decide

theorem seqFailOuter : Statement .seqFailOuter := fun _ => by decide

theorem seqIllegalStateA (s1 hs he : Bool) : Statement (.seqIllegalStateA s1 hs he) := fun _ => by revert s1 hs he; decide

theorem seqIllegalStateB (hs he : Bool) : Statement (.seqIllegalStateB hs he) := fun _ => by revert hs he; decide

end Sys2Proof.Laws.EncodesInRow
end

