-- ==== Sys2Proof/Laws/Words.lean ====
section
/-! SUPPORT. Lemmas about word files, the XOR unit, block assembly and the flat buses. -/

namespace Sys2Proof.Laws

open Sys2Proof.Machine

@[simp] theorem zeros8_getElem (i : Nat) (h : i < 8) : zeros8[i] = 0#32 := by
  simp [zeros8]

theorem padXor_eq_map (pad : Word) (key : Words8) : padXor pad key = key.map (fun k => k ^^^ pad) := by
  apply Vector.toList_inj.mp
  simp [padXor, Vector.toList_map]

@[simp] theorem padXor_getElem (pad : Word) (key : Words8) (i : Nat) (h : i < 8) :
    (padXor pad key)[i] = key[i] ^^^ pad := by
  simp [padXor_eq_map]

theorem joinHalves_eq_append (a b : Words8) : joinHalves a b = (a ++ b : Vector Word (8 + 8)) := by
  apply Vector.toArray_inj.mp
  apply Array.toList_inj.mp
  exact (Array.toList_append (xs := a.toArray) (ys := b.toArray)).symm

/-- The first half of a block (R146). -/
theorem joinHalves_left (a b : Words8) (j : Nat) (h : j < 8) : (joinHalves a b)[j] = a[j] := by
  simp only [joinHalves_eq_append]
  exact Vector.getElem_append_left h

/-- The second half of a block (R146). -/
theorem joinHalves_right (a b : Words8) (j : Nat) (h : j < 8) : (joinHalves a b)[8 + j] = b[j] := by
  simp only [joinHalves_eq_append]
  exact (Vector.getElem_append_right (xs := a) (ys := b) (by omega) (by omega)).trans (by simp)

/-- The inner block in the form of R146: `(KEY ^ IPAD) ++ MSG`. -/
theorem assembleBlock_inner (r : Regs) :
    assembleBlock .inner r = (r.key.map (fun k => k ^^^ 0x36363636#32) ++ r.msg : Vector Word (8 + 8)) := by
  simp [assembleBlock, joinHalves_eq_append, padXor_eq_map, padOf, blockMux, Config.ipad]

/-- The outer block in the form of R146: `(KEY ^ OPAD) ++ D`. -/
theorem assembleBlock_outer (r : Regs) :
    assembleBlock .outer r = (r.key.map (fun k => k ^^^ 0x5c5c5c5c#32) ++ r.d : Vector Word (8 + 8)) := by
  simp [assembleBlock, joinHalves_eq_append, padXor_eq_map, padOf, blockMux, Config.opad]

/-- The offered block depends on SEQ, KEY, MSG and D only (R145, R146, R151). -/
theorem hreqBlock_congr (x y : Regs) (hs : y.seq = x.seq) (hk : y.key = x.key) (hm : y.msg = x.msg) (hd : y.d = x.d) :
    hreqBlock y = hreqBlock x := by
  have hb : ∀ p, assembleBlock p y = assembleBlock p x := by
    intro p
    cases p <;> simp [assembleBlock, blockMux, hk, hm, hd]
  unfold hreqBlock hreqValid
  rw [hs]
  simp [hb]

end Sys2Proof.Laws
end

