-- ==== Sys2Proof/Laws/Step.lean ====
section
/-! SUPPORT. What a transaction, an event and a clock edge can do, said once. -/

namespace Sys2Proof.Laws

open Sys2Proof.Machine

/-- The registers a BUS operation leaves: only an idle CORE is written, and only by WR_KEY, WR_MSG, CLEAR, START. -/
def busRegs (i : Instr) (x : Regs) : Regs :=
  match i with
  | .wrKey k v => if x.busy then x else writeKey k v x
  | .wrMsg k v => if x.busy then x else writeMsg k v x
  | .wrCtrl v =>
    if x.busy then x else if clearBit v then clearAction x else if startBit v then startAction x else x
  | _ => x

/-- The response of a BUS operation (a SEQ operation has none; its value here is used nowhere). -/
def busRsp (i : Instr) (x : Regs) : Response :=
  match i with
  | .wrCtrl v => ⟨0#32, x.busy && isCommand v⟩
  | .rdStatus => ⟨x.statusWord, false⟩
  | .rdWmask => ⟨x.wmaskWord, false⟩
  | .rdIpad => ⟨Config.ipad, false⟩
  | .rdOpad => ⟨Config.opad, false⟩
  | .rdMsg k => ⟨x.msg[k], false⟩
  | .rdResult k => ⟨resultMux k x, false⟩
  | .wrKey _ _ => ⟨0#32, x.busy⟩
  | .wrMsg _ _ => ⟨0#32, x.busy⟩
  | .wrStatus _ => ⟨0#32, true⟩
  | .wrWmask _ => ⟨0#32, true⟩
  | .wrIpad _ => ⟨0#32, true⟩
  | .wrOpad _ => ⟨0#32, true⟩
  | .wrResult _ _ => ⟨0#32, true⟩
  | .busReservedA _ _ => ⟨0#32, true⟩
  | .busReservedB _ _ _ => ⟨0#32, true⟩
  | .busReservedC _ _ _ => ⟨0#32, true⟩
  | .busMisalignedA _ _ _ => ⟨0#32, true⟩
  | .busMisalignedB _ _ _ => ⟨0#32, true⟩
  | .rdCtrl => ⟨0#32, false⟩
  | .rdKey _ => ⟨0#32, false⟩
  | .seqIdle _ _ | .seqInnerReqHold _ | .seqIssueInner _ | .seqInnerWaitHold _ | .seqCaptureInner | .seqFailInner
  | .seqOuterReqHold _ | .seqIssueOuter _ | .seqOuterWaitHold _ | .seqCaptureOuter | .seqFailOuter
  | .seqIllegalStateA _ _ _ | .seqIllegalStateB _ _ => ⟨0#32, false⟩

/-- A BUS operation's whole effect: `regs` and `rsp`, each a function of the registers alone. -/
theorem exec_bus (i : Instr) (s : State) (hi : i.isBus = true) :
    exec i s = .next { s with regs := busRegs i s.regs, rsp := some (busRsp i s.regs) } := by
  cases i
  case wrCtrl v =>
    show execWrCtrl v s = .next { s with
      regs := if s.regs.busy then s.regs else if clearBit v then clearAction s.regs
        else if startBit v then startAction s.regs else s.regs
      rsp := some ⟨0#32, s.regs.busy && isCommand v⟩ }
    unfold execWrCtrl
    cases s.regs.busy
    · simp only [Bool.false_and, Bool.false_eq_true, if_false]
      split
      · rfl
      · split <;> rfl
    · cases isCommand v <;> rfl
  case wrKey k v =>
    show Host.Outcome.next (writeWhenIdle (keyOffset k) (writeKey k v) s) = .next { s with
      regs := if s.regs.busy then s.regs else writeKey k v s.regs, rsp := some ⟨0#32, s.regs.busy⟩ }
    unfold writeWhenIdle
    cases s.regs.busy <;> rfl
  case wrMsg k v =>
    show Host.Outcome.next (writeWhenIdle (msgOffset k) (writeMsg k v) s) = .next { s with
      regs := if s.regs.busy then s.regs else writeMsg k v s.regs, rsp := some ⟨0#32, s.regs.busy⟩ }
    unfold writeWhenIdle
    cases s.regs.busy <;> rfl
  all_goals first
    | rfl
    | cases hi

/-- What a BUS operation leaves in the registers, by cases: nothing new, or, when CORE is idle, one of four writes. -/
theorem busRegs_cases (i : Instr) (x : Regs) :
    busRegs i x = x ∨
    (x.seq = .idle ∧
      ((∃ k v, i = .wrKey k v ∧ busRegs i x = writeKey k v x) ∨
       (∃ k v, i = .wrMsg k v ∧ busRegs i x = writeMsg k v x) ∨
       (∃ v, i = .wrCtrl v ∧ clearBit v = true ∧ busRegs i x = clearAction x) ∨
       (∃ v, i = .wrCtrl v ∧ clearBit v = false ∧ startBit v = true ∧ busRegs i x = startAction x))) := by
  cases i
  case wrKey k v =>
    by_cases hb : x.busy = true
    · exact .inl (if_pos hb)
    · exact .inr ⟨(not_busy_iff _).mp (by simpa using hb), .inl ⟨k, v, rfl, if_neg hb⟩⟩
  case wrMsg k v =>
    by_cases hb : x.busy = true
    · exact .inl (if_pos hb)
    · exact .inr ⟨(not_busy_iff _).mp (by simpa using hb), .inr (.inl ⟨k, v, rfl, if_neg hb⟩)⟩
  case wrCtrl v =>
    by_cases hb : x.busy = true
    · exact .inl (if_pos hb)
    · have hq := (not_busy_iff _).mp (by simpa using hb)
      by_cases h1 : clearBit v = true
      · exact .inr ⟨hq, .inr (.inr (.inl ⟨v, rfl, h1, (if_neg hb).trans (if_pos h1)⟩))⟩
      · by_cases h0 : startBit v = true
        · exact .inr ⟨hq, .inr (.inr (.inr ⟨v, rfl, by simpa using h1, h0,
            (if_neg hb).trans ((if_neg h1).trans (if_pos h0))⟩))⟩
        · exact .inl ((if_neg hb).trans ((if_neg h1).trans (if_neg h0)))
  all_goals exact .inl rfl

/-- A busy CORE is not changed by a BUS operation. -/
theorem busRegs_busy (i : Instr) (x : Regs) (h : x.seq ≠ .idle) : busRegs i x = x := by
  rcases busRegs_cases i x with h' | ⟨h', -⟩
  · exact h'
  · exact absurd h' h

/-- The registers, block in flight and draw counter an event leaves, by SEQ, HS and HE. -/
def eventEffect (hs he : Bool) (s : State) : State :=
  match s.regs.seq with
  | .idle => s
  | .innerReq =>
    if hs then { s with regs := { s.regs with seq := .innerWait }, hp := some (assembleBlock .inner s.regs) } else s
  | .innerWait =>
    if hs then
      (if he then { s with regs := { s.regs with err := true, errCode := 3#4, seq := .idle }, hp := none }
       else endResponse { s with regs := { s.regs with d := hrspDigest s, seq := .outerReq } })
    else s
  | .outerReq =>
    if hs then { s with regs := { s.regs with seq := .outerWait }, hp := some (assembleBlock .outer s.regs) } else s
  | .outerWait =>
    if hs then
      (if he then { s with regs := { s.regs with err := true, errCode := 3#4, seq := .idle }, hp := none }
       else endResponse { s with regs := { s.regs with r := hrspDigest s, seq := .idle, done := true } })
    else s
  | .unused5 => { s with regs := { s.regs with seq := .idle } }
  | .unused6 => { s with regs := { s.regs with seq := .idle } }
  | .unused7 => { s with regs := { s.regs with seq := .idle } }

/-- The operation of the event word formed in each SEQ state (R77). -/
theorem decodeSeq_code (q : SeqState) (hs he : Bool) : decodeSeq (packSeq q.code hs he) =
    match q with
    | .idle => .seqIdle hs he
    | .innerReq => if hs then .seqIssueInner he else .seqInnerReqHold he
    | .innerWait => if hs then (if he then .seqFailInner else .seqCaptureInner) else .seqInnerWaitHold he
    | .outerReq => if hs then .seqIssueOuter he else .seqOuterReqHold he
    | .outerWait => if hs then (if he then .seqFailOuter else .seqCaptureOuter) else .seqOuterWaitHold he
    | .unused5 => .seqIllegalStateA false hs he
    | .unused6 => .seqIllegalStateB hs he
    | .unused7 => .seqIllegalStateA true hs he := by
  cases q <;> revert hs he <;> decide

/-- The event formed from the state's own SEQ has the effect of its rule. -/
theorem exec_event (hs he : Bool) (s : State) :
    exec (decodeSeq (packSeq s.regs.seq.code hs he)) s = .next (eventEffect hs he s) := by
  rw [decodeSeq_code]
  obtain ⟨⟨key, msg, d, r, kwm, mwm, seq, done, err, errCode⟩, hp, env, draws, rsp⟩ := s
  cases seq <;> cases hs <;> cases he <;> rfl

/-- An event formed in IDLE changes nothing, whatever state it meets. -/
theorem exec_event_idle (hs he : Bool) (s : State) :
    exec (decodeSeq (packSeq SeqState.idle.code hs he)) s = .next s := by
  rw [decodeSeq_code]
  rcases whenSeq_eq_self_or .idle hold s with ⟨-, h⟩ | ⟨-, h⟩ <;> simp [exec, execSeqIdle, h, hold]

/-- The registers and the response the bus part of a cycle leaves. -/
def cycleRegs (c : ClockCycle) (x : Regs) : Regs :=
  match c.req with
  | none => x
  | some t => busRegs (decodeBus t) x

/-- The response of the cycle's transaction, if it has one. -/
def cycleRsp (c : ClockCycle) (x : Regs) : Option Response := c.req.map (fun t => busRsp (decodeBus t) x)

theorem busPart_eq (c : ClockCycle) (s : State) :
    busPart c s = .next { s with regs := cycleRegs c s.regs, rsp := cycleRsp c s.regs } := by
  cases h : c.req with
  | none => simp [busPart, cycleRegs, cycleRsp, h]
  | some t => simp [busPart, cycleRegs, cycleRsp, h, exec_bus _ _ (decodeBus_isBus t)]

theorem cycleRegs_busy (c : ClockCycle) (x : Regs) (h : x.seq ≠ .idle) : cycleRegs c x = x := by
  cases hr : c.req <;> simp [cycleRegs, hr, busRegs_busy _ _ h]

/-- An edge without reset: from IDLE the bus effect alone, from a busy state the event's effect alone. -/
theorem activeEdge_eq (canFail : Bool) (c : ClockCycle) (s : State) :
    activeEdge canFail c s = .next
      (if s.regs.seq = .idle then { s with regs := cycleRegs c s.regs, rsp := cycleRsp c s.regs }
       else eventEffect (eventHs c s) (eventHe canFail c s) { s with rsp := cycleRsp c s.regs }) := by
  by_cases hq : s.regs.seq = .idle
  · rw [activeEdge, busPart_eq, eventWord, hq]
    simp only [andThen, exec_event_idle, if_true]
  · rw [activeEdge, busPart_eq, eventWord, cycleRegs_busy _ _ hq, if_neg hq]
    exact exec_event _ _ { s with rsp := cycleRsp c s.regs }

/-- One clock cycle, for every state. -/
theorem clockEdge_eq (canFail : Bool) (s : State) :
    clockEdge canFail s = .next
      (if (takeCycle s).1.rst then resetEdge (takeCycle s).1 (takeCycle s).2
       else if (takeCycle s).2.regs.seq = .idle then
         { (takeCycle s).2 with
           regs := cycleRegs (takeCycle s).1 (takeCycle s).2.regs
           rsp := cycleRsp (takeCycle s).1 (takeCycle s).2.regs }
       else eventEffect (eventHs (takeCycle s).1 (takeCycle s).2) (eventHe canFail (takeCycle s).1 (takeCycle s).2)
         { (takeCycle s).2 with rsp := cycleRsp (takeCycle s).1 (takeCycle s).2.regs }) := by
  unfold clockEdge
  split
  · rfl
  · rw [activeEdge_eq]

/-- A clock edge answers a next state in every state. -/
theorem clockEdge_answers (canFail : Bool) (s : State) : ∃ t, clockEdge canFail s = .next t :=
  ⟨_, clockEdge_eq canFail s⟩

/-- Taking the cycle off the schedule touches only `env` and `draws`. -/
theorem takeCycle_frame (s : State) : (takeCycle s).2.regs = s.regs ∧ (takeCycle s).2.hp = s.hp ∧
    (takeCycle s).2.rsp = s.rsp := by
  unfold takeCycle
  split <;> exact ⟨rfl, rfl, rfl⟩

theorem takeCycle_env (s : State) : (takeCycle s).2.env = s.env.tail := by
  unfold takeCycle
  split <;> simp [*]

theorem eventHs_takeCycle (c : ClockCycle) (s : State) : eventHs c (takeCycle s).2 = eventHs c s := by
  simp [eventHs, acceptsBlock, responds, (takeCycle_frame s).1, (takeCycle_frame s).2.1]

theorem eventHe_takeCycle (canFail : Bool) (c : ClockCycle) (s : State) :
    eventHe canFail c (takeCycle s).2 = eventHe canFail c s := by
  simp [eventHe, (takeCycle_frame s).1]

/-- One clock cycle whose pins the schedule gives. -/
theorem clockEdge_cons (canFail : Bool) (s : State) (c : ClockCycle) (rest : List ClockCycle) (h : s.env = c :: rest) :
    clockEdge canFail s = .next
      (if c.rst then resetEdge c { s with env := rest }
       else if s.regs.seq = .idle then { s with env := rest, regs := cycleRegs c s.regs, rsp := cycleRsp c s.regs }
       else eventEffect (eventHs c s) (eventHe canFail c s) { s with env := rest, rsp := cycleRsp c s.regs }) := by
  obtain ⟨regs, hp, env, draws, rsp⟩ := s
  cases h
  exact clockEdge_eq canFail _

/-- One clock cycle after the schedule. -/
theorem clockEdge_nil (canFail : Bool) (s : State) (h : s.env = []) :
    clockEdge canFail s = .next
      (if s.regs.seq = .idle then { s with draws := s.draws + 1, rsp := none }
       else eventEffect (eventHs (quietCycle s.draws) s) (eventHe canFail (quietCycle s.draws) s)
         { s with draws := s.draws + 1, rsp := none }) := by
  obtain ⟨regs, hp, env, draws, rsp⟩ := s
  cases h
  exact clockEdge_eq canFail _

/-- What a clock edge can do: reset; from IDLE the bus effect alone; from a busy state the event's effect alone. -/
theorem clockEdge_cases (canFail : Bool) (s u : State) (h : clockEdge canFail s = .next u) :
    ((takeCycle s).1.rst = true ∧ u = resetEdge (takeCycle s).1 (takeCycle s).2) ∨
    ((takeCycle s).1.rst = false ∧ s.regs.seq = .idle ∧
      u = { (takeCycle s).2 with
        regs := cycleRegs (takeCycle s).1 s.regs, rsp := cycleRsp (takeCycle s).1 s.regs }) ∨
    ((takeCycle s).1.rst = false ∧ s.regs.seq ≠ .idle ∧
      u = eventEffect (eventHs (takeCycle s).1 s) (eventHe canFail (takeCycle s).1 s)
        { (takeCycle s).2 with rsp := cycleRsp (takeCycle s).1 s.regs }) := by
  obtain ⟨f1, -, -⟩ := takeCycle_frame s
  rw [clockEdge_eq, f1, eventHs_takeCycle, eventHe_takeCycle] at h
  have h := (Host.Outcome.next.inj h).symm
  split at h
  · exact .inl ⟨by assumption, h⟩
  · split at h
    · exact .inr (.inl ⟨by simp_all, by assumption, h⟩)
    · exact .inr (.inr ⟨by simp_all, by assumption, h⟩)

/-! ### Runs -/

/-- An event leaves the response of the cycle as the bus part made it. -/
@[simp] theorem eventEffect_rsp (hs he : Bool) (s : State) : (eventEffect hs he s).rsp = s.rsp := by
  unfold eventEffect
  repeat' split
  all_goals rfl

/-- An event takes no cycle off the schedule. -/
@[simp] theorem eventEffect_env (hs he : Bool) (s : State) : (eventEffect hs he s).env = s.env := by
  unfold eventEffect
  repeat' split
  all_goals rfl

/-- No event writes KEY or MSG, or a mask, and only one in INNER_WAIT writes D (R24, R180). -/
theorem eventEffect_frame (hs he : Bool) (s : State) :
    (eventEffect hs he s).regs.key = s.regs.key ∧ (eventEffect hs he s).regs.msg = s.regs.msg ∧
    (eventEffect hs he s).regs.kwm = s.regs.kwm ∧ (eventEffect hs he s).regs.mwm = s.regs.mwm ∧
    (s.regs.seq ≠ .innerWait → (eventEffect hs he s).regs.d = s.regs.d) := by
  unfold eventEffect
  cases hq : s.regs.seq <;> cases hs <;> cases he <;> simp

/-- Every step uses one cycle of the schedule. -/
theorem step_env (s u : State) (h : step s = .next u) : u.env = s.env.tail := by
  have ht := takeCycle_env s
  rcases clockEdge_cases _ _ _ h with ⟨-, rfl⟩ | ⟨-, -, rfl⟩ | ⟨-, -, rfl⟩
  · exact ht
  · exact ht
  · simpa using ht

/-- A schedule without reset has none in the next cycle. -/
theorem takeCycle_noReset (s : State) (h : NoReset s.env) : (takeCycle s).1.rst = false := by
  unfold takeCycle
  split
  · rfl
  · rename_i c rest he
    exact h c (by simp [he])

/-- A run of `n + 1` cycles is a step and a run of `n`. -/
theorem stepN_succ (n : Nat) (s u : State) :
    stepN (n + 1) s = .next u ↔ ∃ x, step s = .next x ∧ stepN n x = .next u := by
  obtain ⟨x, hx⟩ := clockEdge_answers Config.hashCanFail s
  have hx' : step s = .next x := hx
  simp [stepN, andThen, hx']

/-- Runs compose. -/
theorem stepN_add (m n : Nat) (s x : State) (h : stepN m s = .next x) : stepN (m + n) s = stepN n x := by
  induction m generalizing s with
  | zero => cases h; simp
  | succ m ih =>
    obtain ⟨y, hy, hx⟩ := (stepN_succ m s x).mp h
    rw [show m + 1 + n = (m + n) + 1 by omega]
    simpa [stepN, andThen, hy] using ih y hx

end Sys2Proof.Laws
end

