-- ==== Sys2Proof/Machine/HostProgram.lean ====
section
/-! DEFINITION. The assembler syntax of host programs: the BUS words a line stands for (spec/30_encoding.md R81). The words
are what a host sends; CORE holds no program (spec/20_memory.md R64). -/

namespace Sys2Proof.Machine

/-- `<reg>` of the assembler syntax (R81). -/
inductive AsmReg where
  | ctrl
  | status
  | wmask
  | ipad
  | opad
  | key (i : Index)
  | msg (i : Index)
  | result (i : Index)
  | raw (offset : Offset)
  deriving DecidableEq, Repr

/-- A line of a host program (R81). -/
inductive AsmLine where
  | wr (reg : AsmReg) (imm : Word)
  | rd (reg : AsmReg)
  | start
  | clear
  | loadKey (k : Words8)
  | loadMsg (m : Words8)
  | waitIdle
  | readMac
  | hmac (k m : Words8)
  deriving DecidableEq, Repr

/-- The offset of a register name (spec/20_memory.md R51). -/
def AsmReg.offset : AsmReg → Offset
  | .ctrl => ctrlOffset
  | .status => statusOffset
  | .wmask => wmaskOffset
  | .ipad => ipadOffset
  | .opad => opadOffset
  | .key i => keyOffset i
  | .msg i => msgOffset i
  | .result i => resultOffset i
  | .raw a => a

/-- `wr <reg>, <imm32>`. -/
def wrWord (reg : AsmReg) (imm : Word) : BusWord := packBus true reg.offset imm

/-- `rd <reg>`. -/
def rdWord (reg : AsmReg) : BusWord := packBus false reg.offset 0#32

/-- The eight indices in order. -/
def indices : List Index := [0, 1, 2, 3, 4, 5, 6, 7]

/-- `load_key k0..k7`: 8 words in index order. -/
def loadKeyWords (k : Words8) : List BusWord := indices.map (fun i => wrWord (.key i) k[i])

/-- `load_msg m0..m7`. -/
def loadMsgWords (m : Words8) : List BusWord := indices.map (fun i => wrWord (.msg i) m[i])

/-- `read_mac`. -/
def readMacWords : List BusWord := indices.map (fun i => rdWord (.result i))

/-- `start`. -/
def startWord : BusWord := wrWord .ctrl 0x00000001#32

/-- `clear`. -/
def clearWord : BusWord := wrWord .ctrl 0x00000002#32

/-- `wait_idle` is a loop the host runs: here the STATUS reads it makes when it polls `polls` times. -/
def waitIdleWords (polls : Nat) : List BusWord := List.replicate polls (rdWord .status)

/-- The BUS words a line expands to, when its `wait_idle` polls `polls` times. -/
def AsmLine.words (polls : Nat) : AsmLine → List BusWord
  | .wr reg imm => [wrWord reg imm]
  | .rd reg => [rdWord reg]
  | .start => [startWord]
  | .clear => [clearWord]
  | .loadKey k => loadKeyWords k
  | .loadMsg m => loadMsgWords m
  | .waitIdle => waitIdleWords polls
  | .readMac => readMacWords
  | .hmac k m =>
    loadKeyWords k ++ loadMsgWords m ++ [startWord] ++ waitIdleWords polls ++ readMacWords

/-- `wait_idle` goes on while `rdata[0] = 1`: the host's test on a STATUS response. -/
def pollsAgain (x : Response) : Bool := x.rdata.getLsbD 0

end Sys2Proof.Machine
end

