-- ==== Sys2Proof/Tests/Slice0.lean ====
section
/-! SUPPORT. Tests: ill-formed terms, words written out from the encodings, the vectors of spec/95_test_vectors.md one
step at a time, and for each statement with hypotheses a state and operands that meet them. -/

namespace Sys2Proof.Tests

open Sys2Proof.Machine

/-! ### WellFormed: an ill-formed term for each check -/

theorem test_illformed_reservedA_read_with_data : Instr.wellFormed (.busReservedA false 1#32) = false := by decide

theorem test_illformed_reservedB_offset : Instr.wellFormed (.busReservedB true 0x14#8 0#32) = false := by decide

theorem test_illformed_reservedB_read_with_data : Instr.wellFormed (.busReservedB false 0x18#8 1#32) = false := by decide

theorem test_illformed_reservedC_window : Instr.wellFormed (.busReservedC true 0x7C#8 0#32) = false := by decide

theorem test_illformed_reservedC_misaligned : Instr.wellFormed (.busReservedC true 0x82#8 0#32) = false := by decide

theorem test_illformed_reservedC_read_with_data : Instr.wellFormed (.busReservedC false 0x80#8 1#32) = false := by decide

theorem test_illformed_misalignedA_even : Instr.wellFormed (.busMisalignedA true 0x22#8 0#32) = false := by decide

theorem test_illformed_misalignedA_read_with_data : Instr.wellFormed (.busMisalignedA false 0x21#8 1#32) = false := by
  decide

theorem test_illformed_misalignedB_odd : Instr.wellFormed (.busMisalignedB true 0x23#8 0#32) = false := by decide

theorem test_illformed_misalignedB_aligned : Instr.wellFormed (.busMisalignedB true 0x24#8 0#32) = false := by decide

theorem test_illformed_misalignedB_read_with_data : Instr.wellFormed (.busMisalignedB false 0x42#8 1#32) = false := by
  decide

/-! ### Decode: words written out bit by bit as `{WR, ADDR, DATA}` and `{S, HS, HE}` (R71, R74, R76, R77) -/

theorem test_decode_WrCtrl :
    decodeTableWord 41 0b10000000000000000000000000000000000000011 = some (.wrCtrl 0x00000003#32) := by decide

theorem test_decode_RdCtrl :
    decodeTableWord 41 0b00000000000000000000000000000000000000000 = some (.rdCtrl) := by decide

theorem test_decode_RdStatus :
    decodeTableWord 41 0b00000010000000000000000000000000000000000 = some (.rdStatus) := by decide

theorem test_decode_WrStatus :
    decodeTableWord 41 0b10000010000000000000000000000000000000110 = some (.wrStatus 0x00000006#32) := by decide

theorem test_decode_RdWmask :
    decodeTableWord 41 0b00000100000000000000000000000000000000000 = some (.rdWmask) := by decide

theorem test_decode_WrWmask :
    decodeTableWord 41 0b10000100000000000000000001111111111111111 = some (.wrWmask 0x0000FFFF#32) := by decide

theorem test_decode_RdIpad :
    decodeTableWord 41 0b00000110000000000000000000000000000000000 = some (.rdIpad) := by decide

theorem test_decode_WrIpad :
    decodeTableWord 41 0b10000110010000000000000000000000000000000 = some (.wrIpad 0x80000000#32) := by decide

theorem test_decode_RdOpad :
    decodeTableWord 41 0b00001000000000000000000000000000000000000 = some (.rdOpad) := by decide

theorem test_decode_WrOpad :
    decodeTableWord 41 0b10001000000000000000000000000000000000001 = some (.wrOpad 0x00000001#32) := by decide

theorem test_decode_RdKey :
    decodeTableWord 41 0b00011110000000000000000000000000000000000 = some (.rdKey 7) := by decide

theorem test_decode_WrKey :
    decodeTableWord 41 0b10010000000010001001000100011001101000100 = some (.wrKey 0 0x11223344#32) := by decide

theorem test_decode_RdMsg :
    decodeTableWord 41 0b00101100000000000000000000000000000000000 = some (.rdMsg 6) := by decide

theorem test_decode_WrMsg :
    decodeTableWord 41 0b10101100000000000000000000000000000000101 = some (.wrMsg 6 0x00000005#32) := by decide

theorem test_decode_RdResult :
    decodeTableWord 41 0b00111110000000000000000000000000000000000 = some (.rdResult 7) := by decide

theorem test_decode_WrResult :
    decodeTableWord 41 0b10110000000000000000000000000000000001001 = some (.wrResult 0 0x00000009#32) := by decide

theorem test_decode_BusReservedA :
    decodeTableWord 41 0b10001010000000000000000000000000000000010 = some (.busReservedA true 0x00000002#32) := by decide

theorem test_decode_BusReservedB :
    decodeTableWord 41 0b10001110000000000000000000000000000000001 = some (.busReservedB true 0x1C#8 0x00000001#32) := by decide

theorem test_decode_BusReservedC :
    decodeTableWord 41 0b01000000000000000000000000000000000000000 = some (.busReservedC false 0x80#8 0x00000000#32) := by decide

theorem test_decode_BusMisalignedA :
    decodeTableWord 41 0b10010000100010010001101000101011001111000 = some (.busMisalignedA true 0x21#8 0x12345678#32) := by decide

theorem test_decode_BusMisalignedB :
    decodeTableWord 41 0b10100001000010010001101000101011001111000 = some (.busMisalignedB true 0x42#8 0x12345678#32) := by decide

theorem test_decode_SeqIdle : decodeTableWord 5 0b00011 = some (.seqIdle true true) := by decide

theorem test_decode_SeqInnerReqHold : decodeTableWord 5 0b00101 = some (.seqInnerReqHold true) := by decide

theorem test_decode_SeqIssueInner : decodeTableWord 5 0b00110 = some (.seqIssueInner false) := by decide

theorem test_decode_SeqInnerWaitHold : decodeTableWord 5 0b01001 = some (.seqInnerWaitHold true) := by decide

theorem test_decode_SeqCaptureInner : decodeTableWord 5 0b01010 = some (.seqCaptureInner) := by decide

theorem test_decode_SeqFailInner : decodeTableWord 5 0b01011 = some (.seqFailInner) := by decide

theorem test_decode_SeqOuterReqHold : decodeTableWord 5 0b01100 = some (.seqOuterReqHold false) := by decide

theorem test_decode_SeqIssueOuter : decodeTableWord 5 0b01111 = some (.seqIssueOuter true) := by decide

theorem test_decode_SeqOuterWaitHold : decodeTableWord 5 0b10000 = some (.seqOuterWaitHold false) := by decide

theorem test_decode_SeqCaptureOuter : decodeTableWord 5 0b10010 = some (.seqCaptureOuter) := by decide

theorem test_decode_SeqFailOuter : decodeTableWord 5 0b10011 = some (.seqFailOuter) := by decide

theorem test_decode_SeqIllegalStateA : decodeTableWord 5 0b11110 = some (.seqIllegalStateA true true false) := by decide

theorem test_decode_SeqIllegalStateB : decodeTableWord 5 0b11001 = some (.seqIllegalStateB false true) := by decide

/-- A read ignores its DATA bits (R71). -/
theorem test_decode_read_ignores_data : decodeTableWord 41 0x004FFFFFFFF = some .rdStatus := by decide

theorem test_decode_bus_word_too_wide : tableWord 41 0x20000000000 = .error .busWordTooWide := by decide

theorem test_decode_seq_word_too_wide : tableWord 5 0b100000 = .error .seqWordTooWide := by decide

theorem test_decode_too_wide_is_none : decodeTableWord 41 0x20000000000 = none := by decide

/-! ### Small states -/

/-- CORE with both masks complete and SEQ at `q`. -/
def coreAt (q : SeqState) : Regs := { Regs.reset with kwm := 0xFF#8, mwm := 0xFF#8, seq := q }

/-- A state with that CORE and that block in flight. -/
def stateAt (q : SeqState) (hp : Option Block) : State := { State.reset with regs := coreAt q, hp := hp }

/-- `c` is the next cycle of `s`. -/
def withCycle (c : ClockCycle) (s : State) : State := { s with env := c :: s.env }

/-- A block of zeros. -/
def zeroBlock : Block := Vector.replicate 16 0#32

/-- The response of one step with the BUS word `w` on the request pins. -/
def response (w : Nat) (s : State) : Option Response :=
  match step (s.withFetchWord 41 w) with
  | .next t => t.rsp
  | .fault _ => none
  | .refused _ => none

/-- CORE after one step with the BUS word `w` on the request pins. -/
def coreAfter (w : Nat) (s : State) : Option Regs :=
  match step (s.withFetchWord 41 w) with
  | .next t => some t.regs
  | .fault _ => none
  | .refused _ => none

/-- The state after one step with the event word `e`. -/
def afterEvent (e : Nat) (s : State) : Option State :=
  match step (s.withFetchWord 5 e) with
  | .next t => some t
  | .fault _ => none
  | .refused _ => none

/-! ### The BUS vectors of spec/95_test_vectors.md, section 2 -/

/-- B-1 -/
theorem test_RD_CTRL :
    response 0x00000000000 State.reset = some ⟨0x00000000#32, false⟩ := by decide

/-- B-2 -/
theorem test_RD_STATUS_reset :
    response 0x00400000000 State.reset = some ⟨0x00000000#32, false⟩ := by decide

/-- STATUS with SEQ = OUTER_WAIT -/
theorem test_RD_STATUS_outer_wait :
    response 0x00400000000 (stateAt .outerWait none) = some ⟨0x00000041#32, false⟩ := by decide

/-- P2, line 18 -/
theorem test_RD_WMASK :
    response 0x00800000000 { State.reset with regs := { Regs.reset with kwm := 0x7F#8, mwm := 0xFF#8 } } =
      some ⟨0x0000FF7F#32, false⟩ := by decide

/-- B-4 -/
theorem test_RD_IPAD :
    response 0x00C00000000 (stateAt .innerReq none) = some ⟨0x36363636#32, false⟩ := by decide

/-- B-5 -/
theorem test_RD_OPAD :
    response 0x01000000000 (stateAt .innerReq none) = some ⟨0x5c5c5c5c#32, false⟩ := by decide

/-- B-6 -/
theorem test_WR_KEY :
    coreAfter 0x12800000007 State.reset =
      some { Regs.reset with key := #v[0#32, 0#32, 7#32, 0#32, 0#32, 0#32, 0#32, 0#32], kwm := 0x04#8 } := by decide

/-- B-10 -/
theorem test_WR_KEY_busy :
    response 0x12000000001 (stateAt .innerReq none) = some ⟨0x00000000#32, true⟩ := by decide

/-- B-7 -/
theorem test_RD_KEY :
    response 0x02800000000 { State.reset with regs := { Regs.reset with key := Vector.replicate 8 7#32 } } =
      some ⟨0x00000000#32, false⟩ := by decide

/-- B-8 -/
theorem test_WR_MSG :
    coreAfter 0x15812345678 State.reset =
      some { Regs.reset with msg := #v[0#32, 0#32, 0#32, 0#32, 0#32, 0#32, 0x12345678#32, 0#32], mwm := 0x40#8 } := by decide

/-- B-11 -/
theorem test_WR_MSG_busy :
    response 0x14000000001 (stateAt .innerReq none) = some ⟨0x00000000#32, true⟩ := by decide

/-- B-9 -/
theorem test_RD_MSG :
    response 0x05800000000
        { State.reset with regs := { Regs.reset with msg := #v[0#32, 0#32, 0#32, 0#32, 0#32, 0#32, 0x12345678#32, 0#32] } } =
      some ⟨0x12345678#32, false⟩ := by decide

/-- B-12 -/
theorem test_WR_CTRL_start_busy :
    response 0x10000000001 (stateAt .innerReq none) = some ⟨0x00000000#32, true⟩ := by decide

/-- B-16: CLEAR only -/
theorem test_WR_CTRL_clear_wins :
    coreAfter 0x10000000003 (stateAt .idle none) = some Regs.reset := by decide

/-- B-17 -/
theorem test_WR_STATUS :
    response 0x10400000006 State.reset = some ⟨0x00000000#32, true⟩ := by decide

/-- B-18 -/
theorem test_WR_WMASK :
    response 0x1080000FFFF State.reset = some ⟨0x00000000#32, true⟩ := by decide

/-- B-19 -/
theorem test_WR_IPAD :
    response 0x10C00000000 State.reset = some ⟨0x00000000#32, true⟩ := by decide

/-- B-20 -/
theorem test_WR_OPAD :
    response 0x11000000000 State.reset = some ⟨0x00000000#32, true⟩ := by decide

/-- B-21 -/
theorem test_WR_RESULT :
    response 0x16000000000 State.reset = some ⟨0x00000000#32, true⟩ := by decide

/-- B-22 -/
theorem test_BUS_RESERVED_a :
    response 0x01400000000 State.reset = some ⟨0x00000000#32, true⟩ := by decide

/-- B-23 -/
theorem test_BUS_RESERVED_b :
    response 0x11C00000001 State.reset = some ⟨0x00000000#32, true⟩ := by decide

/-- B-24 -/
theorem test_BUS_RESERVED_c :
    response 0x0FC00000000 State.reset = some ⟨0x00000000#32, true⟩ := by decide

/-- B-25 -/
theorem test_BUS_MISALIGNED_a :
    response 0x02100000000 State.reset = some ⟨0x00000000#32, true⟩ := by decide

/-- B-26: MSG and MWM unchanged -/
theorem test_BUS_MISALIGNED_b :
    coreAfter 0x14212345678 State.reset = some Regs.reset := by decide

/-- Family MUX -/
theorem test_RD_RESULT_done :
    response 0x07C00000000 { State.reset with regs := { Regs.reset with r := #v[0#32, 0#32, 0#32, 0#32, 0#32, 0#32, 0#32, 0x8dd059ad#32], done := true } } =
      some ⟨0x8dd059ad#32, false⟩ := by decide

/-- Family MUX -/
theorem test_RD_RESULT_busy :
    response 0x07C00000000 { State.reset with regs := { coreAt .outerReq with r := #v[0#32, 0#32, 0#32, 0#32, 0#32, 0#32, 0#32, 0x8dd059ad#32] } } =
      some ⟨0x00000000#32, false⟩ := by decide

/-! ### Engine errors and reset (families ERR, RESET, BUS) -/

/-- E-1 -/
theorem test_start_without_key_word_7 :
    (coreAfter 0x10000000001
        { State.reset with regs := { Regs.reset with kwm := 0x7F#8, mwm := 0xFF#8 } }).map Regs.statusWord =
      some 0x00000104#32 := by decide

/-- E-2 -/
theorem test_start_without_msg_word_0 :
    (coreAfter 0x10000000001
        { State.reset with regs := { Regs.reset with kwm := 0xFF#8, mwm := 0xFE#8 } }).map Regs.statusWord =
      some 0x00000204#32 := by decide

/-- E-7 -/
theorem test_retry_after_failure :
    (coreAfter 0x10000000001
        { State.reset with regs := { coreAt .idle with err := true, errCode := 3#4 } }).map Regs.statusWord =
      some 0x00000011#32 := by decide

/-- B-27 -/
theorem test_reset_answers_and_resets :
    step (withCycle { transactionCycle 0x00C00000000#41 with rst := true } (stateAt .outerWait (some zeroBlock))) =
      .next { State.reset with rsp := some ⟨0#32, true⟩ } := rfl

/-! ### The sequencer (family SEQ, transition vectors) -/

/-- 000,x,x -/
theorem test_SEQ_IDLE :
    (afterEvent 0b00011 (stateAt .idle none)).map (fun t => (t.regs.statusWord, t.hp)) =
      some (0x00000000#32, none) := by decide

/-- 001,0,x -/
theorem test_SEQ_INNER_REQ_HOLD :
    (afterEvent 0b00100 (stateAt .innerReq none)).map (fun t => (t.regs.statusWord, t.hp)) =
      some (0x00000011#32, none) := by decide

/-- 001,1,x with the block of family BLOCK -/
theorem test_SEQ_ISSUE_INNER :
    (afterEvent 0b00110 { State.reset with regs :=
        { coreAt .innerReq with
          key := #v[0#32, 0#32, 0#32, 0#32, 0#32, 0#32, 3#32, 2#32]
          msg := #v[0#32, 0#32, 0#32, 0#32, 0#32, 0#32, 5#32, 5#32] } }).map (fun t => (t.regs.statusWord, t.hp)) =
      some (0x00000021#32, some (#v[0x36363636#32, 0x36363636#32, 0x36363636#32, 0x36363636#32, 0x36363636#32,
        0x36363636#32, 0x36363635#32, 0x36363634#32, 0#32, 0#32, 0#32, 0#32, 0#32, 0#32, 5#32, 5#32])) := by decide

/-- 010,0,x -/
theorem test_SEQ_INNER_WAIT_HOLD :
    (afterEvent 0b01000 (stateAt .innerWait (some zeroBlock))).map (fun t => (t.regs.statusWord, t.hp)) =
      some (0x00000021#32, some zeroBlock) := by decide

/-- 010,1,0: D is the digest of the block in flight -/
theorem test_SEQ_CAPTURE_INNER :
    (afterEvent 0b01010 (stateAt .innerWait (some zeroBlock))).map (fun t => (t.regs.seq, t.regs.d, t.hp)) =
      some (.outerReq, Config.hashFn zeroBlock, none) := rfl

/-- 010,1,1 -/
theorem test_SEQ_FAIL_INNER :
    (afterEvent 0b01011 (stateAt .innerWait (some zeroBlock))).map (fun t => (t.regs.statusWord, t.hp)) =
      some (0x00000304#32, none) := by decide

/-- 011,0,x -/
theorem test_SEQ_OUTER_REQ_HOLD :
    (afterEvent 0b01101 (stateAt .outerReq none)).map (fun t => (t.regs.statusWord, t.hp)) =
      some (0x00000031#32, none) := by decide

/-- 011,1,x with the block of family BLOCK -/
theorem test_SEQ_ISSUE_OUTER :
    (afterEvent 0b01110 { State.reset with regs :=
        { coreAt .outerReq with
          key := #v[0#32, 0#32, 0#32, 0#32, 0#32, 0#32, 3#32, 2#32]
          d := #v[0x36363636#32, 0x36363636#32, 0x36363636#32, 0x36363636#32, 0x36363636#32, 0x36363636#32,
            0x36363630#32, 0x36363631#32] } }).map (fun t => (t.regs.statusWord, t.hp)) =
      some (0x00000041#32, some (#v[0x5c5c5c5c#32, 0x5c5c5c5c#32, 0x5c5c5c5c#32, 0x5c5c5c5c#32, 0x5c5c5c5c#32,
        0x5c5c5c5c#32, 0x5c5c5c5f#32, 0x5c5c5c5e#32, 0x36363636#32, 0x36363636#32, 0x36363636#32, 0x36363636#32,
        0x36363636#32, 0x36363636#32, 0x36363630#32, 0x36363631#32])) := by decide

/-- 100,0,x -/
theorem test_SEQ_OUTER_WAIT_HOLD :
    (afterEvent 0b10001 (stateAt .outerWait (some zeroBlock))).map (fun t => (t.regs.statusWord, t.hp)) =
      some (0x00000041#32, some zeroBlock) := by decide

/-- 100,1,0: R is the digest of the block in flight, STATUS = 0x00000002 -/
theorem test_SEQ_CAPTURE_OUTER :
    (afterEvent 0b10010 (stateAt .outerWait (some zeroBlock))).map (fun t => (t.regs.statusWord, t.regs.r, t.hp)) =
      some (0x00000002#32, Config.hashFn zeroBlock, none) := rfl

/-- 100,1,1 -/
theorem test_SEQ_FAIL_OUTER :
    (afterEvent 0b10011 (stateAt .outerWait (some zeroBlock))).map (fun t => (t.regs.statusWord, t.hp)) =
      some (0x00000304#32, none) := by decide

/-- 101 -/
theorem test_SEQ_ILLEGAL_STATE_a :
    (afterEvent 0b10111 State.reset).map (fun t => t.regs) = some Regs.reset := by decide

/-- 110 -/
theorem test_SEQ_ILLEGAL_STATE_b :
    (afterEvent 0b11000 State.reset).map (fun t => t.regs) = some Regs.reset := by decide

/-! ### Host programs (R81) -/

/-- P2, lines 8 to 15 -/
theorem test_load_msg :
    AsmLine.words 0 (.loadMsg #v[0#32, 0#32, 0#32, 0#32, 0#32, 0#32, 5#32, 5#32]) =
      [0x14000000000#41, 0x14400000000#41, 0x14800000000#41, 0x14C00000000#41, 0x15000000000#41, 0x15400000000#41,
        0x15800000005#41, 0x15C00000005#41] := by decide

/-- P1, lines 18 to 30 -/
theorem test_wait_and_read_mac :
    AsmLine.words 1 .waitIdle ++ AsmLine.words 0 .readMac =
      [0x00400000000#41, 0x06000000000#41, 0x06400000000#41, 0x06800000000#41, 0x06C00000000#41, 0x07000000000#41,
        0x07400000000#41, 0x07800000000#41, 0x07C00000000#41] := by decide

/-! ### Witnesses: states and operands that meet the hypotheses of the statements -/

theorem stateAt_inv_reset : State.reset.Inv :=
  ⟨by decide, by decide, by decide, by decide, by decide, by decide, by decide⟩

theorem stateAt_inv_innerReq : (stateAt .innerReq none).Inv :=
  ⟨by decide, by decide, by decide, by decide, by decide, by decide, by decide⟩

theorem stateAt_inv_outerWait : (stateAt .outerWait (some zeroBlock)).Inv :=
  ⟨by decide, by decide, by decide, by decide, by decide, by decide, by decide⟩

/-- A state whose MAC is shown. -/
def doneState : State := { State.reset with regs := { coreAt .idle with done := true, r := Vector.replicate 8 7#32 } }

theorem doneState_inv : doneState.Inv :=
  ⟨by decide, by decide, by decide, by decide, by decide, by decide, by decide⟩

/-- A cycle that writes START. -/
def startCycle : ClockCycle := transactionCycle 0x10000000001#41

/-- A cycle that asserts reset and carries a transaction. -/
def resetCycle : ClockCycle := { startCycle with rst := true }

/-- A cycle in which the hash primitive responds with an error. -/
def failCycle : ClockCycle := { respondCycle with hrspErr := true }

theorem witness_DecodingAnEncodedOperationGivesItBack :
    Instr.wellFormed (.busReservedC true 0xFC#8 0xFFFFFFFF#32) = true ∧
    Instr.wellFormed (.busReservedB false 0x1C#8 0#32) = true ∧
    Instr.wellFormed (.busMisalignedA false 0xFF#8 0#32) = true ∧
    Instr.wellFormed (.busMisalignedB true 0xFE#8 1#32) = true ∧ Instr.wellFormed (.wrKey 7 1#32) = true := by decide

theorem witness_StepRunsTheDecodedTransactionAndEvent :
    (withCycle startCycle (stateAt .innerReq none)).env = startCycle :: [] ∧ startCycle.rst = false ∧
    (stateAt .innerReq none).regs.seq = .innerReq ∧ (stateAt .outerWait (some zeroBlock)).regs.seq = .outerWait ∧
    waitCycle.req = none ∧ startCycle.req = some 0x10000000001#41 ∧
    exec (decodeBus 0x10000000001#41) { stateAt .innerReq none with env := [], rsp := none } =
      .next { stateAt .innerReq none with rsp := some ⟨0#32, true⟩ } := ⟨rfl, rfl, rfl, rfl, rfl, rfl, rfl⟩

theorem witness_StepRunsThePlacedTableWord :
    State.reset.regs.seq = .idle ∧ (stateAt .innerReq none).regs.seq = .innerReq ∧
    (stateAt .innerWait (some zeroBlock)).regs.seq = .innerWait ∧ (stateAt .outerReq none).regs.seq = .outerReq ∧
    (stateAt .outerWait (some zeroBlock)).regs.seq = .outerWait := by decide

theorem witness_ResetEdgeLeavesTheResetState :
    (withCycle resetCycle (stateAt .outerWait (some zeroBlock))).env = resetCycle :: [] ∧ resetCycle.rst = true ∧
    resetCycle.req = some 0x10000000001#41 := by decide

theorem witness_EveryStepKeepsTheInvariants :
    (withCycle failCycle (stateAt .outerWait (some zeroBlock))).Inv ∧
    ∃ t, step (withCycle failCycle (stateAt .outerWait (some zeroBlock))) = .next t :=
  ⟨⟨by decide, by decide, by decide, by decide, by decide, by decide, by decide⟩, _, rfl⟩

theorem witness_ReadsOfCtrlPadsAndKeyAnswerConstants :
    (busWr 0x00000000000#41 = false ∧ busAddr 0x00000000000#41 = 0x00#8) ∧
    (busWr 0x00C00000000#41 = false ∧ busAddr 0x00C00000000#41 = 0x0C#8) ∧
    (busWr 0x01000000000#41 = false ∧ busAddr 0x01000000000#41 = 0x10#8) ∧
    (busWr 0x02000000000#41 = false ∧ (busAddr 0x02000000000#41).toNat = 0x20 + 4 * (0 : Index).val) ∧
    (busWr 0x03C00000000#41 = false ∧ (busAddr 0x03C00000000#41).toNat = 0x20 + 4 * (7 : Index).val) := by decide

theorem witness_ReadStatusPacksTheFlagsAndTheSequencer :
    (busWr 0x00400000000#41 = false ∧ busAddr 0x00400000000#41 = 0x04#8) ∧ State.reset.regs.seq = .idle ∧
    (stateAt .innerReq none).regs.seq = .innerReq ∧ (stateAt .innerWait (some zeroBlock)).regs.seq = .innerWait ∧
    (stateAt .outerReq none).regs.seq = .outerReq ∧ (stateAt .outerWait (some zeroBlock)).regs.seq = .outerWait := by
  decide

theorem witness_ReadWmaskShowsBothMasks : busWr 0x00800000000#41 = false ∧ busAddr 0x00800000000#41 = 0x08#8 := by
  decide

theorem witness_ReadsOfMessageAndResult :
    (busWr 0x04000000000#41 = false ∧ (busAddr 0x04000000000#41).toNat = 0x40 + 4 * (0 : Index).val) ∧
    (busWr 0x05C00000000#41 = false ∧ (busAddr 0x05C00000000#41).toNat = 0x40 + 4 * (7 : Index).val) ∧
    (busWr 0x06000000000#41 = false ∧ (busAddr 0x06000000000#41).toNat = 0x60 + 4 * (0 : Index).val) ∧
    (busWr 0x07C00000000#41 = false ∧ (busAddr 0x07C00000000#41).toNat = 0x60 + 4 * (7 : Index).val) ∧
    doneState.regs.done = true ∧ State.reset.regs.done = false := by decide

theorem witness_WritesToReadOnlyRegistersAreBusErrors :
    (busWr 0x10400000006#41 = true ∧ busAddr 0x10400000006#41 = 0x04#8 ∧ busData 0x10400000006#41 = 6#32) ∧
    (busWr 0x1080000FFFF#41 = true ∧ busAddr 0x1080000FFFF#41 = 0x08#8 ∧ busData 0x1080000FFFF#41 = 0xFFFF#32) ∧
    (busWr 0x10C00000000#41 = true ∧ busAddr 0x10C00000000#41 = 0x0C#8 ∧ busData 0x10C00000000#41 = 0#32) ∧
    (busWr 0x11000000000#41 = true ∧ busAddr 0x11000000000#41 = 0x10#8 ∧ busData 0x11000000000#41 = 0#32) ∧
    (busWr 0x16000000001#41 = true ∧ (busAddr 0x16000000001#41).toNat = 0x60 + 4 * (0 : Index).val ∧
      busData 0x16000000001#41 = 1#32) ∧
    (busWr 0x17C00000001#41 = true ∧ (busAddr 0x17C00000001#41).toNat = 0x60 + 4 * (7 : Index).val ∧
      busData 0x17C00000001#41 = 1#32) := by decide

theorem witness_ReservedAndMisalignedAccessesAreBusErrors :
    (busAddr 0x02100000000#41).extractLsb' 0 2 ≠ 0b00#2 ∧ (busAddr 0x14212345678#41).extractLsb' 0 2 ≠ 0b00#2 ∧
    busAddr 0x01400000000#41 = 0x14#8 ∧ busAddr 0x01800000000#41 = 0x18#8 ∧ busAddr 0x11C00000001#41 = 0x1C#8 ∧
    0x80 ≤ (busAddr 0x08000000000#41).toNat ∧ 0x80 ≤ (busAddr 0x0FC00000000#41).toNat := by decide

theorem witness_WriteKeyStoresWhenIdleAndIsRefusedWhenBusy :
    (busWr 0x12000000001#41 = true ∧ (busAddr 0x12000000001#41).toNat = 0x20 + 4 * (0 : Index).val ∧
      busData 0x12000000001#41 = 1#32) ∧
    (busWr 0x13C00000008#41 = true ∧ (busAddr 0x13C00000008#41).toNat = 0x20 + 4 * (7 : Index).val ∧
      busData 0x13C00000008#41 = 8#32) ∧
    State.reset.regs.seq = .idle ∧ (stateAt .innerReq none).regs.seq ≠ .idle := by decide

theorem witness_WriteMessageStoresWhenIdleAndIsRefusedWhenBusy :
    (busWr 0x14000000001#41 = true ∧ (busAddr 0x14000000001#41).toNat = 0x40 + 4 * (0 : Index).val ∧
      busData 0x14000000001#41 = 1#32) ∧
    (busWr 0x15C00000008#41 = true ∧ (busAddr 0x15C00000008#41).toNat = 0x40 + 4 * (7 : Index).val ∧
      busData 0x15C00000008#41 = 8#32) ∧
    State.reset.regs.seq = .idle ∧ (stateAt .outerWait (some zeroBlock)).regs.seq ≠ .idle := by decide

theorem witness_WriteCtrlRunsItsCommandOnlyWhenIdle :
    (busWr 0x10000000003#41 = true ∧ busAddr 0x10000000003#41 = 0x00#8 ∧ busData 0x10000000003#41 = 3#32) ∧
    (stateAt .innerReq none).regs.seq ≠ .idle ∧ (1#32).getLsbD 0 = true ∧ (2#32).getLsbD 1 = true ∧
    ((0xFFFFFFFC#32).getLsbD 1 = false ∧ (0xFFFFFFFC#32).getLsbD 0 = false) ∧
    (State.reset.regs.seq = .idle ∧ (3#32).getLsbD 1 = true) ∧
    (State.reset.regs.seq = .idle ∧ (1#32).getLsbD 1 = false ∧ (1#32).getLsbD 0 = true) := by decide

theorem witness_StartBeginsAComputationOrRecordsTheMissingInput :
    (State.reset.regs.seq = .idle ∧ (1#32).getLsbD 1 = false ∧ (1#32).getLsbD 0 = true) ∧
    State.reset.regs.kwm ≠ 0xFF#8 ∧
    ({ coreAt .idle with mwm := 0xFE#8 }.kwm = 0xFF#8 ∧ { coreAt .idle with mwm := 0xFE#8 }.mwm ≠ 0xFF#8) ∧
    ((coreAt .idle).kwm = 0xFF#8 ∧ (coreAt .idle).mwm = 0xFF#8) := by decide

theorem witness_BusErrorsChangeNothing :
    exec (decodeBus 0x12000000001#41) (stateAt .innerReq none) =
      .next { stateAt .innerReq none with rsp := some ⟨0#32, true⟩ } ∧
    (⟨0#32, true⟩ : Response).err = true := ⟨rfl, rfl⟩

theorem witness_BusErrorsHaveExactlyTheListedCauses :
    (withCycle startCycle (stateAt .innerReq none)).env = startCycle :: [] ∧ startCycle.req = some 0x10000000001#41 ∧
    (withCycle resetCycle State.reset).env = resetCycle :: [] ∧ resetCycle.req = some 0x10000000001#41 := by decide

theorem witness_ReadsHaveNoSideEffect :
    busWr 0x07C00000000#41 = false ∧
    (busAddr 0x16000000001#41 ≠ 0x00#8 ∧
      ¬(0x20 ≤ (busAddr 0x16000000001#41).toNat ∧ (busAddr 0x16000000001#41).toNat < 0x60)) ∧
    (busAddr 0x11C00000001#41 ≠ 0x00#8 ∧
      ¬(0x20 ≤ (busAddr 0x11C00000001#41).toNat ∧ (busAddr 0x11C00000001#41).toNat < 0x60)) := by decide

theorem witness_ResponsesShowTheStateAtTheStartOfTheCycle :
    (withCycle { respondCycle with req := some 0x00400000000#41 } (stateAt .outerWait (some zeroBlock))).env =
      { respondCycle with req := some 0x00400000000#41 } :: [] ∧ respondCycle.rst = false ∧
    ∃ u, step (withCycle { respondCycle with req := some 0x00400000000#41 } (stateAt .outerWait (some zeroBlock))) =
      .next u := ⟨rfl, rfl, _, rfl⟩

theorem witness_KeyBlocksAreTheKeyXoredWithThePads : zeros8[(0 : Index)] = zeros8[(0 : Index)] := rfl

/-- An acceptance, an offer with the primitive not ready, and one with the primitive holding a block. -/
theorem witness_HashRequestPortOffersTheBlockUntilAccepted :
    hreqValid Regs.reset = false ∧ (stateAt .innerReq none).regs.seq = .innerReq ∧
    (stateAt .outerReq none).regs.seq = .outerReq ∧
    (withCycle acceptCycle (stateAt .outerReq none)).env = acceptCycle :: [] ∧ acceptCycle.rst = false ∧
    hreqValid (stateAt .outerReq none).regs = true ∧ hreqValid (stateAt .innerReq none).regs = true ∧
    ((stateAt .outerReq none).hp = none ∧ acceptCycle.hreqReady = true) ∧
    waitCycle.hreqReady = false ∧ (stateAt .outerReq (some zeroBlock)).hp ≠ none := by decide

/-- An offer that is not accepted. -/
theorem witness_OfferedBlockAndInputsAreStableWhileBusy :
    (stateAt .innerReq none).regs.seq ≠ .idle ∧ (stateAt .innerReq none).regs.seq ≠ .innerWait ∧
    (takeCycle (withCycle waitCycle (stateAt .innerReq none))).1.rst = false ∧
    (takeCycle (withCycle waitCycle (stateAt .innerReq none))).1.hreqReady = false ∧
    hreqValid (stateAt .innerReq none).regs = true ∧
    ∃ u, step (withCycle waitCycle (stateAt .innerReq none)) = .next u ∧ u.regs.seq = .innerReq :=
  ⟨by decide, by decide, rfl, rfl, rfl, _, rfl, rfl⟩

theorem witness_HashPinsAreIgnoredOutsideTheirStates :
    (State.reset.regs.seq ≠ .innerWait ∧ State.reset.regs.seq ≠ .outerWait) ∧
    ((stateAt .innerWait (some zeroBlock)).regs.seq ≠ .innerReq ∧
      (stateAt .innerWait (some zeroBlock)).regs.seq ≠ .outerReq) := by decide

theorem witness_HoldTransitionsChangeNothing :
    (seqS 0b00011#5 = 0b000#3 ∧ State.reset.regs.seq = .idle) ∧
    (seqS 0b00101#5 = 0b001#3 ∧ seqHs 0b00101#5 = false ∧ (stateAt .innerReq none).regs.seq = .innerReq) ∧
    (seqS 0b01001#5 = 0b010#3 ∧ seqHs 0b01001#5 = false ∧
      (stateAt .innerWait (some zeroBlock)).regs.seq = .innerWait) ∧
    (seqS 0b01100#5 = 0b011#3 ∧ seqHs 0b01100#5 = false ∧ (stateAt .outerReq none).regs.seq = .outerReq) ∧
    (seqS 0b10000#5 = 0b100#3 ∧ seqHs 0b10000#5 = false ∧
      (stateAt .outerWait (some zeroBlock)).regs.seq = .outerWait) := by decide

theorem witness_IssueHandsTheBlockToTheHashPrimitive :
    (seqS 0b00110#5 = 0b001#3 ∧ seqHs 0b00110#5 = true ∧ (stateAt .innerReq none).regs.seq = .innerReq) ∧
    (seqS 0b01111#5 = 0b011#3 ∧ seqHs 0b01111#5 = true ∧ (stateAt .outerReq none).regs.seq = .outerReq) := by decide

theorem witness_CaptureStoresTheDigestOfTheBlockInFlight :
    (seqS 0b01010#5 = 0b010#3 ∧ seqHs 0b01010#5 = true ∧ seqHe 0b01010#5 = false) ∧
    ((stateAt .innerWait (some zeroBlock)).regs.seq = .innerWait ∧
      (stateAt .innerWait (some zeroBlock)).hp = some zeroBlock) ∧
    (seqS 0b10010#5 = 0b100#3 ∧ seqHs 0b10010#5 = true ∧ seqHe 0b10010#5 = false) ∧
    ((stateAt .outerWait (some zeroBlock)).regs.seq = .outerWait ∧
      (stateAt .outerWait (some zeroBlock)).hp = some zeroBlock) := by decide

theorem witness_CaptureWithoutABlockStoresSomeDigest :
    ((stateAt .innerWait none).hp = none ∧ (stateAt .innerWait none).regs.seq = .innerWait) ∧
    ((stateAt .outerWait none).hp = none ∧ (stateAt .outerWait none).regs.seq = .outerWait) := by decide

theorem witness_HashFailureEntersTheErrorState :
    (seqS 0b01011#5 = 0b010#3 ∧ seqHs 0b01011#5 = true ∧ seqHe 0b01011#5 = true) ∧
    (stateAt .innerWait (some zeroBlock)).regs.seq = .innerWait ∧
    (seqS 0b10011#5 = 0b100#3 ∧ seqHs 0b10011#5 = true ∧ seqHe 0b10011#5 = true) ∧
    (stateAt .outerWait (some zeroBlock)).regs.seq = .outerWait := by decide

theorem witness_IllegalSequencerStatesRecoverToIdle :
    (seqS 0b10100#5 = 0b101#3 ∧ (stateAt .unused5 none).regs.seq = .unused5) ∧
    (seqS 0b11111#5 = 0b111#3 ∧ (stateAt .unused7 none).regs.seq = .unused7) ∧
    (seqS 0b11000#5 = 0b110#3 ∧ (stateAt .unused6 none).regs.seq = .unused6) := by decide

theorem witness_SequencerStatesHaveOnlyTheListedSuccessors :
    ∀ q ∈ [SeqState.idle, .innerReq, .innerWait, .outerReq, .outerWait, .unused5, .unused6, .unused7],
      (takeCycle (withCycle waitCycle (stateAt q none))).1.rst = false ∧ (stateAt q none).regs.seq = q ∧
      ∃ u, step (withCycle waitCycle (stateAt q none)) = .next u := by
  intro q _
  exact ⟨rfl, rfl, by cases q <;> exact ⟨_, rfl⟩⟩

/-- Each state of SEQ with a block in flight exactly in the WAIT states, and the masks complete. -/
theorem witness_EveryListedSuccessorIsTaken :
    ∀ q ∈ [SeqState.idle, .innerReq, .innerWait, .outerReq, .outerWait, .unused5, .unused6, .unused7],
      ∃ hp, ((stateAt q hp).hp.isSome = true ↔ (q = .innerWait ∨ q = .outerWait)) ∧ (stateAt q hp).regs.seq = q ∧
        (stateAt q hp).regs.kwm = 0xFF#8 ∧ (stateAt q hp).regs.mwm = 0xFF#8 := by
  intro q _
  cases q
  case innerWait => exact ⟨some zeroBlock, by decide⟩
  case outerWait => exact ⟨some zeroBlock, by decide⟩
  all_goals exact ⟨none, by decide⟩

theorem witness_TransitionsAreTakenOnlyInTheirOwnState :
    State.reset.regs.seq ≠ SeqState.ofCode (seqS 0b01010#5) ∧
    (stateAt .innerReq none).regs.seq ≠ SeqState.ofCode (seqS 0b00011#5) := by decide

/-- R changes at a capture and at CLEAR; DONE falls at START. -/
theorem witness_MacChangesOnlyAtCaptureClearAndReset :
    doneState.Inv ∧
    (∃ u, step (withCycle (transactionCycle 0x10000000002#41) doneState) = .next u ∧ u.regs.r ≠ doneState.regs.r) ∧
    (∃ u, step (withCycle startCycle doneState) = .next u ∧ doneState.regs.done = true ∧ u.regs.done = false) ∧
    (∃ u, step (withCycle respondCycle (stateAt .outerWait (some zeroBlock))) = .next u ∧
      (stateAt .outerWait (some zeroBlock)).regs.done = false ∧ u.regs.done = true) ∧
    (∃ u, step (withCycle waitCycle doneState) = .next u ∧ doneState.regs.done = true ∧ u.regs.done = true) :=
  ⟨doneState_inv, ⟨_, rfl, by decide⟩, ⟨_, rfl, rfl, rfl⟩, ⟨_, rfl, rfl, rfl⟩, ⟨_, rfl, rfl, rfl⟩⟩

/-- D changes at CLEAR; a response that keeps R. -/
theorem witness_InnerDigestChangesOnlyAtCaptureClearAndReset :
    (∃ u, step (withCycle (transactionCycle 0x10000000002#41)
        { State.reset with regs := { Regs.reset with d := Vector.replicate 8 7#32 } }) = .next u ∧
      u.regs.d ≠ Vector.replicate 8 7#32) ∧
    ((takeCycle (withCycle respondCycle (stateAt .innerWait (some zeroBlock)))).1.rst = false ∧
      (stateAt .innerWait (some zeroBlock)).regs.seq = .innerWait ∧
      ∃ u, step (withCycle respondCycle (stateAt .innerWait (some zeroBlock))) = .next u) ∧
    (takeCycle (withCycle respondCycle (stateAt .outerWait (some zeroBlock)))).1.rst = false :=
  ⟨⟨_, rfl, by decide⟩, ⟨rfl, rfl, _, rfl⟩, rfl⟩

theorem witness_MaskBitsRecordAcceptedWrites :
    (takeCycle (withCycle (transactionCycle 0x13C00000008#41) State.reset)).1.rst = false ∧
    (∃ u, step (withCycle (transactionCycle 0x13C00000008#41) State.reset) = .next u) ∧
    ¬∃ t v, (takeCycle (withCycle (transactionCycle 0x13C00000008#41) State.reset)).1.req = some t ∧
      decodeBus t = .wrCtrl v ∧ v.getLsbD 1 = true ∧ State.reset.regs.seq = .idle := by
  refine ⟨rfl, ⟨_, rfl⟩, ?_⟩
  rintro ⟨t, v, ht, hd, -⟩
  cases ht
  exact absurd (hd.symm.trans (show decodeBus 0x13C00000008#41 = .wrKey 7 8#32 by decide)) (by simp)

/-- ERR falls by an accepted START; it rises by a START refused for the key, for the message, and by both failures. -/
theorem witness_ErrorStateIsEnteredAndLeftOnlyAsListed :
    (∃ u, step (withCycle startCycle { stateAt .idle none with regs := { coreAt .idle with err := true, errCode := 3#4 } }) =
      .next u ∧ u.regs.err = false) ∧
    (∃ u, step (withCycle startCycle State.reset) = .next u ∧ State.reset.regs.err = false ∧ u.regs.err = true) ∧
    (∃ u, step (withCycle startCycle { State.reset with regs := { coreAt .idle with mwm := 0xFE#8 } }) = .next u ∧
      u.regs.err = true) ∧
    (∃ u, step (withCycle failCycle (stateAt .innerWait (some zeroBlock))) = .next u ∧ u.regs.err = true) ∧
    (∃ u, step (withCycle failCycle (stateAt .outerWait (some zeroBlock))) = .next u ∧ u.regs.err = true) :=
  ⟨⟨_, rfl, rfl⟩, ⟨_, rfl, rfl, rfl⟩, ⟨_, rfl, rfl⟩, ⟨_, rfl, rfl⟩, ⟨_, rfl, rfl⟩⟩

theorem witness_WithoutFailingHashNoFailureIsRecorded :
    ∃ u, clockEdge false (withCycle waitCycle { State.reset with regs := { Regs.reset with err := true, errCode := 3#4 } }) =
      .next u ∧ u.regs.errCode = 0x3#4 := ⟨_, rfl, rfl⟩

theorem witness_IdleIsQuiescent :
    State.reset.regs.seq = .idle ∧ (takeCycle (withCycle failCycle State.reset)).1.rst = false ∧
    (takeCycle (withCycle failCycle State.reset)).1.req = none ∧
    ∃ u, step (withCycle failCycle State.reset) = .next u := ⟨rfl, rfl, rfl, _, rfl⟩

/-- Each of the four stages of a computation on a zero key and message. -/
theorem witness_EachCycleKeepsAdvancesOrEndsAComputation :
    Progress zeros8 zeros8 (stateAt .innerReq none) ∧
    Progress zeros8 zeros8 (stateAt .innerWait (some (zeros8.map (fun k => k ^^^ 0x36363636#32) ++ zeros8))) ∧
    Progress zeros8 zeros8
      { stateAt .outerReq none with regs := { coreAt .outerReq with d := innerDigestOf zeros8 zeros8 } } ∧
    Progress zeros8 zeros8
      { stateAt .outerWait none with
        regs := { coreAt .outerWait with d := innerDigestOf zeros8 zeros8 }
        hp := some (zeros8.map (fun k => k ^^^ 0x5c5c5c5c#32) ++ innerDigestOf zeros8 zeros8) } ∧
    (takeCycle (withCycle waitCycle (stateAt .innerReq none))).1.rst = false ∧
    ∃ u, step (withCycle waitCycle (stateAt .innerReq none)) = .next u :=
  ⟨⟨rfl, rfl, rfl, rfl, .inl ⟨rfl, rfl⟩⟩, ⟨rfl, rfl, rfl, rfl, .inr (.inl ⟨rfl, rfl⟩)⟩,
    ⟨rfl, rfl, rfl, rfl, .inr (.inr (.inl ⟨rfl, rfl, rfl⟩))⟩,
    ⟨rfl, rfl, rfl, rfl, .inr (.inr (.inr ⟨rfl, rfl, rfl⟩))⟩, rfl, _, rfl⟩

/-- A START, and a computation whose inner hash call fails. -/
theorem witness_CompletedComputationHoldsTheMac :
    NoReset [acceptCycle, failCycle] ∧ startCycle.rst = false ∧ startCycle.req = some 0x10000000001#41 ∧
    decodeBus 0x10000000001#41 = .wrCtrl 1#32 ∧ (1#32).getLsbD 0 = true ∧ (1#32).getLsbD 1 = false ∧
    (stateAt .idle none).regs.seq = .idle ∧ (stateAt .idle none).regs.kwm = 0xFF#8 ∧
    (stateAt .idle none).regs.mwm = 0xFF#8 ∧ (stateAt .idle none).hp = none ∧
    (∃ u, stepN (2 + 1) { stateAt .idle none with env := [startCycle, acceptCycle, failCycle] } = .next u ∧
      u.regs.seq = .idle) ∧
    (∀ k x, k < 2 → stepN (k + 1) { stateAt .idle none with env := [startCycle, acceptCycle, failCycle] } = .next x →
      x.regs.seq ≠ .idle) := by
  refine ⟨?_, rfl, rfl, by decide, rfl, rfl, rfl, rfl, rfl, rfl, ⟨_, rfl, rfl⟩, ?_⟩
  · intro c hc
    simp only [List.mem_cons, List.not_mem_nil, or_false] at hc
    rcases hc with rfl | rfl <;> rfl
  · intro k x hk h
    obtain rfl | rfl : k = 0 ∨ k = 1 := by omega
    all_goals
      cases h
      intro hq
      cases hq

theorem witness_EveryComputationEnds :
    (withCycle waitCycle (stateAt .innerReq none)).Inv ∧ (stateAt .innerReq none).regs.seq ≠ .idle ∧
    NoReset (withCycle waitCycle (stateAt .innerReq none)).env := by
  refine ⟨⟨by decide, by decide, by decide, by decide, by decide, by decide, by decide⟩, by decide, ?_⟩
  intro c hc
  simp only [withCycle, stateAt, State.reset, List.mem_cons, List.not_mem_nil, or_false] at hc
  rw [hc]
  rfl

theorem witness_ComputationTakesTheNominalNumberOfEdges :
    1 ≤ 1 ∧ 1 ≤ 2 ∧ Progress zeros8 zeros8 { stateAt .innerReq none with env := hashCall 0 1 ++ hashCall 1 2 ++ [] } ∧
    (stateAt .innerReq none).regs.key = zeros8 ∧ (stateAt .innerReq none).regs.msg = zeros8 ∧
    (stateAt .innerReq none).regs.seq = .innerReq :=
  ⟨by decide, by decide, ⟨rfl, rfl, rfl, rfl, .inl ⟨rfl, rfl⟩⟩, rfl, rfl, rfl⟩

/-- A shown MAC and a cycle that writes a message word. -/
theorem witness_ShownMacStaysUntilACommandOrReset :
    doneState.Inv ∧ doneState.regs.done = true ∧
    (∀ c ∈ (withCycle (transactionCycle 0x14000000001#41) doneState).env.take 1, c.rst = false ∧ ¬c.commands) ∧
    ∃ u, stepN 1 (withCycle (transactionCycle 0x14000000001#41) doneState) = .next u := by
  refine ⟨doneState_inv, rfl, ?_, _, rfl⟩
  intro c hc
  simp only [withCycle, doneState, State.reset, List.take_succ_cons, List.take_zero, List.mem_cons, List.not_mem_nil,
    or_false] at hc
  subst hc
  refine ⟨rfl, ?_⟩
  rintro ⟨t, v, ht, hd, -⟩
  cases ht
  exact absurd (hd.symm.trans (show decodeBus 0x14000000001#41 = .wrMsg 0 1#32 by decide)) (by simp)

/-- Two states with different keys, inner digests and unshown MACs. -/
theorem witness_TransactionsRevealNeitherKeyNorInnerDigest :
    SameButSecrets State.reset { State.reset with regs := { Regs.reset with
      key := Vector.replicate 8 1#32, d := Vector.replicate 8 2#32, r := Vector.replicate 8 3#32 } } ∧
    SameShownMac State.reset { State.reset with regs := { Regs.reset with
      key := Vector.replicate 8 1#32, d := Vector.replicate 8 2#32, r := Vector.replicate 8 3#32 } } :=
  ⟨⟨rfl, rfl, rfl, rfl, rfl, rfl, rfl, rfl, rfl, rfl⟩, fun h => by cases h⟩

/-- Two states with different keys and a waiting cycle. -/
theorem witness_ClockEdgesRevealTheSecretsOnlyThroughTheMac :
    SameButSecrets (withCycle waitCycle (stateAt .innerReq none))
      (withCycle waitCycle { stateAt .innerReq none with regs := { coreAt .innerReq with
        key := Vector.replicate 8 1#32 } }) ∧
    (∃ u, step (withCycle waitCycle (stateAt .innerReq none)) = .next u) ∧
    (∃ u, step (withCycle waitCycle { stateAt .innerReq none with regs := { coreAt .innerReq with
      key := Vector.replicate 8 1#32 } }) = .next u) :=
  ⟨⟨rfl, rfl, rfl, rfl, rfl, rfl, rfl, rfl, rfl, rfl⟩, ⟨_, rfl⟩, ⟨_, rfl⟩⟩

theorem witness_ClockEdgeIsAtMostTwoAtomicMoves :
    (stateAt .outerWait (some zeroBlock)).regs.seq = .outerWait ∧
    ∃ u, clockEdge true (withCycle failCycle (stateAt .outerWait (some zeroBlock))) = .next u := ⟨rfl, _, rfl⟩

/-- Each kind of atomic move. -/
theorem witness_EveryAtomicMoveIsAClockEdge :
    (∃ x, AtomicMove true State.reset x ∧ State.reset.regs.seq = .idle) ∧
    (∃ x, AtomicMove true (stateAt .outerReq none) x) ∧
    AtomicMove true State.reset { State.reset with regs := Regs.reset, hp := none } ∧
    (∃ x, AtomicMove true (stateAt .innerReq none) x) ∧
    (∃ x, AtomicMove true (stateAt .innerWait (some zeroBlock)) x) ∧
    (∃ x, AtomicMove true (stateAt .outerWait (some zeroBlock)) x) ∧
    (∃ x, AtomicMove true (stateAt .outerWait (some zeroBlock)) x ∧ x.regs.err = true) :=
  ⟨⟨_, .transaction 0x10000000001#41 _ _ rfl, rfl⟩, ⟨_, .issueOuter _ rfl rfl⟩, .reset _, ⟨_, .issueInner _ rfl rfl⟩,
    ⟨_, .respondInner _ zeroBlock rfl rfl⟩, ⟨_, .respondOuter _ zeroBlock rfl rfl⟩,
    ⟨_, .fail _ zeroBlock rfl (.inr rfl) rfl, rfl⟩⟩

/-- A refused START while an issue is taken, and an accepted one with the idle transition. -/
theorem witness_TransactionAndTransitionCommute :
    (∃ ub us, exec (decodeBus 0x10000000001#41) (stateAt .innerReq none) = .next ub ∧
      exec (decodeSeq (packSeq (stateAt .innerReq none).regs.seq.code true false)) (stateAt .innerReq none) = .next us ∧
      ((stateAt .innerReq none).regs.seq = .idle ↔ us.regs.seq = .idle)) ∧
    (∃ ub us, exec (decodeBus 0x10000000001#41) (stateAt .idle none) = .next ub ∧
      exec (decodeSeq (packSeq (stateAt .idle none).regs.seq.code true false)) (stateAt .idle none) = .next us ∧
      ((stateAt .idle none).regs.seq = .idle ↔ us.regs.seq = .idle)) :=
  ⟨⟨_, _, rfl, rfl, by decide⟩, ⟨_, _, rfl, rfl, by decide⟩⟩

end Sys2Proof.Tests
end

section
/-! PROOFS. What a cycle does to the registers, the sequencer and the block in flight; the statements about the state:
the invariants, who writes what, and what the secrets may influence. -/

namespace Sys2Proof.Proofs

open Sys2Proof.Machine Sys2Proof.Laws

/-! ### The cycle taken off the schedule -/

@[simp] theorem takeCycle_regs (s : State) : (takeCycle s).2.regs = s.regs := (takeCycle_frame s).1

@[simp] theorem takeCycle_hp (s : State) : (takeCycle s).2.hp = s.hp := (takeCycle_frame s).2.1

/-- `clockEdge_cases` for CORE and the block in flight: reset, the bus effect on an idle CORE, or the event's effect on
a state `x` that differs from `s` outside the two only. -/
theorem step_cases {s u : State} (h : step s = .next u) :
    ((takeCycle s).1.rst = true ∧ u.regs = Regs.reset ∧ u.hp = none) ∨
    ((takeCycle s).1.rst = false ∧ s.regs.seq = .idle ∧ u.regs = cycleRegs (takeCycle s).1 s.regs ∧ u.hp = s.hp) ∨
    ((takeCycle s).1.rst = false ∧ s.regs.seq ≠ .idle ∧ ∃ x : State, x.regs = s.regs ∧ x.hp = s.hp ∧
      u = eventEffect (eventHs (takeCycle s).1 s) (eventHe Config.hashCanFail (takeCycle s).1 s) x) := by
  rcases clockEdge_cases _ _ _ h with ⟨hr, rfl⟩ | ⟨hr, hq, rfl⟩ | ⟨hr, hq, rfl⟩
  · exact .inl ⟨hr, rfl, rfl⟩
  · exact .inr (.inl ⟨hr, hq, rfl, takeCycle_hp s⟩)
  · exact .inr (.inr ⟨hr, hq, { (takeCycle s).2 with rsp := cycleRsp (takeCycle s).1 s.regs },
      takeCycle_regs s, takeCycle_hp s, rfl⟩)

/-! ### What the bus part of a cycle leaves in the registers -/

/-- `busRegs_cases` for a cycle: nothing new, or the write that the transaction of the cycle makes on an idle CORE. -/
theorem cycleRegs_cases (c : ClockCycle) (x : Regs) :
    cycleRegs c x = x ∨
    (x.seq = .idle ∧ ∃ t, c.req = some t ∧
      ((∃ k v, decodeBus t = .wrKey k v ∧ cycleRegs c x = writeKey k v x) ∨
       (∃ k v, decodeBus t = .wrMsg k v ∧ cycleRegs c x = writeMsg k v x) ∨
       (∃ v, decodeBus t = .wrCtrl v ∧ clearBit v = true ∧ cycleRegs c x = clearAction x) ∨
       (∃ v, decodeBus t = .wrCtrl v ∧ clearBit v = false ∧ startBit v = true ∧
         cycleRegs c x = startAction x))) := by
  cases hreq : c.req with
  | none => exact .inl (by simp [cycleRegs, hreq])
  | some t =>
    have h : cycleRegs c x = busRegs (decodeBus t) x := by simp [cycleRegs, hreq]
    rw [h]
    rcases busRegs_cases (decodeBus t) x with h | ⟨hq, h⟩
    · exact .inl h
    · exact .inr ⟨hq, t, rfl, h⟩

/-- From IDLE the bus part of a cycle stays there or starts a computation. -/
theorem cycleRegs_seq_of_idle (c : ClockCycle) (x : Regs) (hq : x.seq = .idle) :
    (cycleRegs c x).seq = .idle ∨ (cycleRegs c x).seq = .innerReq := by
  rcases cycleRegs_cases c x with h | ⟨-, t, -, ⟨k, v, -, h⟩ | ⟨k, v, -, h⟩ | ⟨v, -, -, h⟩ | ⟨v, -, -, -, h⟩⟩ <;> rw [h]
  case inr.inr.inr.inr =>
    rcases startAction_cases x with ⟨-, h⟩ | ⟨-, -, h⟩ | ⟨-, -, h⟩ <;> simp [h]
  all_goals exact .inl hq

/-- START writes no word file and no mask (R102). -/
theorem startAction_frame (x : Regs) :
    (startAction x).key = x.key ∧ (startAction x).msg = x.msg ∧ (startAction x).d = x.d ∧ (startAction x).r = x.r ∧
    (startAction x).kwm = x.kwm ∧ (startAction x).mwm = x.mwm := by
  rcases startAction_cases x with ⟨-, h⟩ | ⟨-, -, h⟩ | ⟨-, -, h⟩ <;> simp [h]

/-- START never leaves a MAC shown (R102). -/
theorem startAction_done (x : Regs) : (startAction x).done = false := by
  rcases startAction_cases x with ⟨-, h⟩ | ⟨-, -, h⟩ | ⟨-, -, h⟩ <;> simp [h]

/-- A BUS operation shows a MAC only where one was shown, and leaves it as it is. -/
theorem busRegs_done (i : Instr) (x : Regs) (h : (busRegs i x).done = true) :
    x.done = true ∧ (busRegs i x).r = x.r := by
  rcases busRegs_cases i x with e | ⟨-, ⟨k, v, -, e⟩ | ⟨k, v, -, e⟩ | ⟨v, -, -, e⟩ | ⟨v, -, -, -, e⟩⟩ <;> rw [e] at h ⊢
  case inr.inr.inr.inr => simp [startAction_done] at h
  case inr.inr.inr.inl => simp at h
  all_goals exact ⟨h, rfl⟩

/-- A BUS operation that is no accepted CLEAR sets the mask bit of the word its accepted write names, and no other. -/
theorem busRegs_masks_getLsbD (i : Instr) (x : Regs) (k : Index)
    (hc : ¬∃ v, i = .wrCtrl v ∧ clearBit v = true ∧ x.seq = .idle) :
    ((busRegs i x).kwm.getLsbD k.val = true ↔
      x.kwm.getLsbD k.val = true ∨ ∃ v, i = .wrKey k v ∧ x.seq = .idle) ∧
    ((busRegs i x).mwm.getLsbD k.val = true ↔
      x.mwm.getLsbD k.val = true ∨ ∃ v, i = .wrMsg k v ∧ x.seq = .idle) := by
  by_cases hq : x.seq = .idle
  swap
  · simp [busRegs_busy i x hq, hq]
  have hb : x.busy = false := (not_busy_iff x).mpr hq
  cases i
  case wrKey j v =>
    have h : busRegs (.wrKey j v) x = writeKey j v x := by simp [busRegs, hb]
    rw [h, writeKey_kwm, mask_set_getLsbD]
    simp [hq, eq_comm (a := j)]
  case wrMsg j v =>
    have h : busRegs (.wrMsg j v) x = writeMsg j v x := by simp [busRegs, hb]
    rw [h, writeMsg_mwm, mask_set_getLsbD]
    simp [hq, eq_comm (a := j)]
  case wrCtrl v =>
    have hv : clearBit v = false := by simpa [hq] using hc
    obtain ⟨-, -, -, -, hk, hm⟩ := startAction_frame x
    cases h0 : startBit v <;> simp [busRegs, hb, hv, h0, hk, hm]
  all_goals simp [busRegs]

/-! ### What an event leaves in the registers -/

/-- The successor of a SEQ state on an event with the given HS and HE (R155 to R166). -/
def nextSeq (hs he : Bool) : SeqState → SeqState
  | .idle => .idle
  | .innerReq => if hs then .innerWait else .innerReq
  | .innerWait => if hs then (if he then .idle else .outerReq) else .innerWait
  | .outerReq => if hs then .outerWait else .outerReq
  | .outerWait => if hs then .idle else .outerWait
  | .unused5 => .idle
  | .unused6 => .idle
  | .unused7 => .idle

theorem eventEffect_seq (hs he : Bool) (s : State) :
    (eventEffect hs he s).regs.seq = nextSeq hs he s.regs.seq := by
  unfold eventEffect
  cases hq : s.regs.seq <;> cases hs <;> cases he <;> simp [nextSeq, hq]

/-- An event writes R only when it is a response in OUTER_WAIT (R180). -/
theorem eventEffect_r (hs he : Bool) (s : State) (h : s.regs.seq ≠ .outerWait) :
    (eventEffect hs he s).regs.r = s.regs.r := by
  unfold eventEffect
  cases hq : s.regs.seq <;> cases hs <;> cases he <;> simp_all

/-- An event that changes D is a response without an error in INNER_WAIT (R159). -/
theorem eventEffect_d_ne (hs he : Bool) (s : State) (h : (eventEffect hs he s).regs.d ≠ s.regs.d) :
    s.regs.seq = .innerWait ∧ hs = true ∧ he = false := by
  have hq : s.regs.seq = .innerWait := by
    obtain ⟨-, -, -, -, hd⟩ := eventEffect_frame hs he s
    exact not_imp_comm.mp hd h
  refine ⟨hq, ?_⟩
  cases hs <;> cases he <;> simp_all [eventEffect]

/-- ERR after an event: a failing response in a WAIT state sets it, and no event clears it (R160, R165). -/
theorem eventEffect_err (hs he : Bool) (s : State) :
    (eventEffect hs he s).regs.err = (s.regs.err || (s.regs.seq.isWait && hs && he)) := by
  unfold eventEffect
  cases hq : s.regs.seq <;> cases hs <;> cases he <;> simp [SeqState.isWait]

/-- A failing response records code 3 and ends the computation (R160, R165, R209). -/
theorem eventEffect_of_failure (s : State) (hw : s.regs.seq.isWait = true) :
    eventEffect true true s =
      { s with regs := { s.regs with err := true, errCode := 3#4, seq := .idle }, hp := none } := by
  unfold eventEffect
  cases hq : s.regs.seq <;> simp_all [SeqState.isWait]

/-! ### Reset -/

/-- Settles O8: the edge is `resetEdge`, which takes `Regs.reset` as it stands. -/
theorem resetEdgeLeavesTheResetState : Obligations.ResetEdgeLeavesTheResetState := by
  intro s c rest henv hrst
  refine ⟨resetEdge c { s with env := rest }, ?_, ?_, rfl, rfl, rfl, rfl, rfl, rfl, rfl, rfl, rfl, rfl⟩
  · rw [step, clockEdge_cons _ s c rest henv, if_pos hrst]
  · intro i
    simp [resetEdge, Regs.reset]

/-! ### The invariants -/

/-- R42 speaks of CORE and of the block in flight only. -/
theorem inv_congr {s t : State} (hregs : t.regs = s.regs) (hhp : t.hp = s.hp) (h : s.Inv) : t.Inv := by
  obtain ⟨regs, hp, env, draws, rsp⟩ := t
  cases hregs
  cases hhp
  exact ⟨h.busyIsClean, h.notDoneAndErr, h.errIffCode, h.codeRange, h.busyIsComplete, h.seqIsUsed, h.inFlightIffWait⟩

/-- In IDLE R42 asks that no block is in flight and that the flags and the code agree. -/
theorem inv_of_idle {s : State} (hq : s.regs.seq = .idle) (hhp : s.hp = none)
    (hde : ¬(s.regs.done = true ∧ s.regs.err = true)) (hec : s.regs.err = false ↔ s.regs.errCode = 0#4)
    (hcode : s.regs.errCode = 0#4 ∨ s.regs.errCode = 1#4 ∨ s.regs.errCode = 2#4 ∨ s.regs.errCode = 3#4) : s.Inv where
  busyIsClean hb := absurd hq ((busy_iff _).mp hb)
  notDoneAndErr := hde
  errIffCode := hec
  codeRange := hcode
  busyIsComplete hb := absurd hq ((busy_iff _).mp hb)
  seqIsUsed := .inl hq
  inFlightIffWait := by simp [hq, hhp]

/-- In IDLE R42 speaks of no register but DONE, ERR and ERR_CODE. -/
theorem inv_of_sameFlags {s t : State} (h : s.Inv) (hq : t.regs.seq = .idle) (hhp : t.hp = none)
    (hdone : t.regs.done = s.regs.done) (herr : t.regs.err = s.regs.err) (hcode : t.regs.errCode = s.regs.errCode) :
    t.Inv :=
  inv_of_idle hq hhp (by simpa [hdone, herr] using h.notDoneAndErr) (by simpa [herr, hcode] using h.errIffCode)
    (by simpa [hcode] using h.codeRange)

/-- What R42 asks of the registers while a computation runs. -/
structure CleanAndComplete (x : Regs) : Prop where
  done : x.done = false
  err : x.err = false
  errCode : x.errCode = 0#4
  kwm : x.kwm = 0xFF#8
  mwm : x.mwm = 0xFF#8

theorem cleanAndComplete_of_inv {s : State} (h : s.Inv) (hq : s.regs.seq ≠ .idle) : CleanAndComplete s.regs := by
  obtain ⟨hdone, herr⟩ := h.busyIsClean ((busy_iff _).mpr hq)
  obtain ⟨hk, hm⟩ := h.busyIsComplete ((busy_iff _).mpr hq)
  exact ⟨hdone, herr, h.errIffCode.mp herr, hk, hm⟩

theorem inv_of_busy {s : State} (h : CleanAndComplete s.regs)
    (hq : s.regs.seq = .innerReq ∨ s.regs.seq = .innerWait ∨ s.regs.seq = .outerReq ∨ s.regs.seq = .outerWait)
    (hhp : s.hp.isSome = true ↔ (s.regs.seq = .innerWait ∨ s.regs.seq = .outerWait)) : s.Inv where
  busyIsClean _ := ⟨h.done, h.err⟩
  notDoneAndErr := by simp [h.done]
  errIffCode := by simp [h.err, h.errCode]
  codeRange := .inl h.errCode
  busyIsComplete _ := ⟨h.kwm, h.mwm⟩
  seqIsUsed := .inr hq
  inFlightIffWait := hhp

theorem inv_stateReset : State.reset.Inv :=
  inv_of_idle rfl rfl (by decide) (by decide) (by decide)

/-- In IDLE no block is in flight (R42 (vii)). -/
theorem hp_of_inv_idle {s : State} (h : s.Inv) (hq : s.regs.seq = .idle) : s.hp = none := by
  simpa [hq] using h.inFlightIffWait

/-- What a transaction does to an idle CORE keeps R42. -/
theorem inv_of_cycleRegs {s t : State} (c : ClockCycle) (hs : s.Inv) (hq : s.regs.seq = .idle)
    (hregs : t.regs = cycleRegs c s.regs) (hhp : t.hp = s.hp) : t.Inv := by
  have hnone : t.hp = none := hhp.trans (hp_of_inv_idle hs hq)
  rcases cycleRegs_cases c s.regs with
      h | ⟨-, -, -, ⟨k, v, -, h⟩ | ⟨k, v, -, h⟩ | ⟨v, -, -, h⟩ | ⟨v, -, -, -, h⟩⟩ <;> rw [h] at hregs
  · exact inv_congr hregs hhp hs
  · exact inv_of_sameFlags hs (by simp [hregs, hq]) hnone (by simp [hregs]) (by simp [hregs]) (by simp [hregs])
  · exact inv_of_sameFlags hs (by simp [hregs, hq]) hnone (by simp [hregs]) (by simp [hregs]) (by simp [hregs])
  · exact inv_of_idle (by simp [hregs, hq]) hnone (by simp [hregs]) (by simp [hregs]) (by simp [hregs])
  · rcases startAction_cases s.regs with ⟨-, h⟩ | ⟨-, -, h⟩ | ⟨hk, hm, h⟩ <;> rw [h] at hregs
    · exact inv_of_idle (by simp [hregs]) hnone (by simp [hregs]) (by simp [hregs]) (by simp [hregs])
    · exact inv_of_idle (by simp [hregs]) hnone (by simp [hregs]) (by simp [hregs]) (by simp [hregs])
    · exact inv_of_busy ⟨by simp [hregs], by simp [hregs], by simp [hregs], by simp [hregs, hk], by simp [hregs, hm]⟩
        (by simp [hregs]) (by simp [hregs, hnone])

/-- Every event keeps R42, whatever HS and HE are. -/
theorem inv_eventEffect (hs he : Bool) {s : State} (h : s.Inv) : (eventEffect hs he s).Inv := by
  rcases h.seqIsUsed with hq | hq | hq | hq | hq <;> simp only [eventEffect, hq]
  case inl => exact h
  all_goals
    obtain ⟨hdone, herr, hcode, hk, hm⟩ := cleanAndComplete_of_inv h (by simp [hq])
    cases hs
    case false => exact h
  case inr.inl => exact inv_of_busy ⟨hdone, herr, hcode, hk, hm⟩ (by simp) (by simp)
  case inr.inr.inr.inl => exact inv_of_busy ⟨hdone, herr, hcode, hk, hm⟩ (by simp) (by simp)
  case inr.inr.inl =>
    cases he
    · exact inv_of_busy ⟨hdone, herr, hcode, hk, hm⟩ (by simp) (by simp)
    · exact inv_of_idle (by simp) (by simp) (by simp [hdone]) (by simp) (by simp)
  case inr.inr.inr.inr =>
    cases he
    · exact inv_of_idle (by simp) (by simp) (by simp [herr]) (by simp [herr, hcode]) (by simp [hcode])
    · exact inv_of_idle (by simp) (by simp) (by simp [hdone]) (by simp) (by simp)

/-- Settles O9. -/
theorem resetStateMeetsTheInvariants : Obligations.ResetStateMeetsTheInvariants := inv_stateReset

/-- Settles O10, by what a clock edge can do: reset, the bus effect on an idle CORE, or the event's effect. -/
theorem everyStepKeepsTheInvariants : Obligations.EveryStepKeepsTheInvariants := by
  intro s t hs h
  rcases step_cases h with ⟨-, hregs, hhp⟩ | ⟨-, hq, hregs, hhp⟩ | ⟨-, -, x, hregs, hhp, rfl⟩
  · exact inv_congr (s := State.reset) hregs hhp inv_stateReset
  · exact inv_of_cycleRegs _ hs hq hregs hhp
  · exact inv_eventEffect _ _ (inv_congr hregs hhp hs)

/-! ### The sequencer's successors -/

/-- Settles O36: from IDLE only the bus part moves SEQ, from a busy state only the event. -/
theorem sequencerStatesHaveOnlyTheListedSuccessors : Obligations.SequencerStatesHaveOnlyTheListedSuccessors := by
  intro s u hrst h
  rcases step_cases h with ⟨hr, -⟩ | ⟨-, hq, hregs, -⟩ | ⟨-, hq, x, hregs, -, rfl⟩
  · simp [hr] at hrst
  · have hseq := cycleRegs_seq_of_idle (takeCycle s).1 s.regs hq
    simp [hq, hregs, hseq]
  · rw [eventEffect_seq, hregs]
    generalize eventHs (takeCycle s).1 s = hs
    generalize eventHe Config.hashCanFail (takeCycle s).1 s = he
    cases hseq : s.regs.seq
    case idle => exact absurd hseq hq
    all_goals cases hs <;> cases he <;> simp [nextSeq]

theorem isWait_iff (q : SeqState) : q.isWait = true ↔ q = .innerWait ∨ q = .outerWait := by
  cases q <;> simp [SeqState.isWait]

/-- The pins that answer in a WAIT state with an error (R154). -/
def failingResponse : ClockCycle := { respondCycle with hrspErr := true }

theorem eventHs_waitCycle (s : State) : eventHs waitCycle s = false := by
  simp [eventHs, acceptsBlock, responds, waitCycle]

theorem eventHs_acceptCycle (s : State) (hb : s.hp.isSome = s.regs.seq.isWait) (hq : s.regs.seq.isReq = true) :
    eventHs acceptCycle s = true := by
  have hnone : s.hp = none := by
    cases hseq : s.regs.seq <;> simp_all [SeqState.isReq, SeqState.isWait]
  simp [eventHs, acceptsBlock, acceptCycle, waitCycle, hq, hnone]

/-- A response is taken in a WAIT state, where a block is in flight, whatever its error bit. -/
theorem eventHs_of_respond (c : ClockCycle) (s : State) (hc : c.hrspValid = true)
    (hb : s.hp.isSome = s.regs.seq.isWait) (hq : s.regs.seq.isWait = true) : eventHs c s = true := by
  have hreq : s.regs.seq.isReq = false := by
    rcases (isWait_iff _).mp hq with h | h <;> simp [h, SeqState.isReq]
  simp [eventHs, responds, hc, hreq, hq, hb]

theorem eventHe_respondCycle (s : State) (hq : s.regs.seq.isWait = true) :
    eventHe Config.hashCanFail respondCycle s = false := by
  simp [eventHe, responseErr, respondCycle, waitCycle, hq]

theorem eventHe_failingResponse (s : State) (hq : s.regs.seq.isWait = true) :
    eventHe Config.hashCanFail failingResponse s = true := by
  simp [eventHe, responseErr, failingResponse, Config.hashCanFail, hq]

/-- From a busy state the pins of a cycle choose the successor. -/
theorem canGoTo_of_busy {s : State} {q : SeqState} (c : ClockCycle) (hq : s.regs.seq ≠ .idle) (hr : c.rst = false)
    (hn : nextSeq (eventHs c s) (eventHe Config.hashCanFail c s) s.regs.seq = q) : CanGoTo s q := by
  refine ⟨c, _, hr, clockEdge_cons Config.hashCanFail { s with env := c :: s.env } c s.env rfl, ?_⟩
  rw [hr, if_neg Bool.false_ne_true, if_neg hq, eventEffect_seq]
  exact hn

/-- From IDLE the transaction of a cycle chooses the successor. -/
theorem canGoTo_of_idle {s : State} {q : SeqState} (c : ClockCycle) (hq : s.regs.seq = .idle) (hr : c.rst = false)
    (hn : (cycleRegs c s.regs).seq = q) : CanGoTo s q := by
  refine ⟨c, _, hr, clockEdge_cons Config.hashCanFail { s with env := c :: s.env } c s.env rfl, ?_⟩
  rw [hr, if_neg Bool.false_ne_true, if_pos hq]
  exact hn

/-- A START on an idle CORE with complete masks begins a computation (R102). -/
theorem cycleRegs_start_seq (x : Regs) (hq : x.seq = .idle) (hk : x.kwm = 0xFF#8) (hm : x.mwm = 0xFF#8) :
    (cycleRegs (transactionCycle (packBus true 0x00#8 1#32)) x).seq = .innerReq := by
  have hd : decodeFields true 0x00#8 1#32 = .wrCtrl 1#32 := by decide
  have hstart : cycleRegs (transactionCycle (packBus true 0x00#8 1#32)) x = startAction x := by
    simp [cycleRegs, transactionCycle, hd, busRegs, Regs.busy, hq, clearBit, startBit]
  simp [hstart, startAction, Regs.keyComplete, Regs.msgComplete, hk, hm]

/-- In a REQ or WAIT state a cycle in which the primitive does nothing stays there. -/
theorem canGoTo_self (s : State) (hq : s.regs.seq.isReq = true ∨ s.regs.seq.isWait = true) :
    CanGoTo s s.regs.seq := by
  refine canGoTo_of_busy waitCycle (fun h => by simp [h, SeqState.isReq, SeqState.isWait] at hq) rfl ?_
  cases hseq : s.regs.seq <;> simp_all [eventHs_waitCycle, nextSeq, SeqState.isReq, SeqState.isWait]

/-- In a REQ state the primitive can accept the block offered. -/
theorem canGoTo_of_accept (s : State) (q : SeqState) (hb : s.hp.isSome = s.regs.seq.isWait)
    (hq : s.regs.seq.isReq = true) (hn : ∀ he, nextSeq true he s.regs.seq = q) : CanGoTo s q := by
  refine canGoTo_of_busy acceptCycle (fun h => by simp [h, SeqState.isReq] at hq) rfl ?_
  rw [eventHs_acceptCycle s hb hq, hn]

/-- In a WAIT state the primitive can answer the block in flight, with an error or without. -/
theorem canGoTo_of_response (s : State) (hb : s.hp.isSome = s.regs.seq.isWait) (hq : s.regs.seq.isWait = true) :
    ∀ he, CanGoTo s (nextSeq true he s.regs.seq) := by
  have hbusy : s.regs.seq ≠ .idle := fun h => by simp [h, SeqState.isWait] at hq
  rintro (_ | _)
  · refine canGoTo_of_busy respondCycle hbusy rfl ?_
    rw [eventHs_of_respond respondCycle s rfl hb hq, eventHe_respondCycle s hq]
  · refine canGoTo_of_busy failingResponse hbusy rfl ?_
    rw [eventHs_of_respond failingResponse s rfl hb hq, eventHe_failingResponse s hq]

/-- Settles O54: a waiting cycle stays, a cycle of acceptance or of a response goes on, and START leaves IDLE. -/
theorem everyListedSuccessorIsTaken : Obligations.EveryListedSuccessorIsTaken := by
  intro s hhp
  have hb : s.hp.isSome = s.regs.seq.isWait := by rw [Bool.eq_iff_iff, hhp, isWait_iff]
  have hstay := canGoTo_self s
  have haccept := fun q => canGoTo_of_accept s q hb
  have hrespond := canGoTo_of_response s hb
  refine ⟨fun hq => ?_, fun hq => ?_, fun hq => ?_, fun hq => ?_, fun hq => ?_, fun hq => ?_⟩
  case refine_1 =>
    exact ⟨canGoTo_of_idle waitCycle hq rfl hq,
      fun hk hm => canGoTo_of_idle _ hq rfl (cycleRegs_start_seq _ hq hk hm)⟩
  case refine_6 =>
    refine canGoTo_of_busy waitCycle ?_ rfl ?_ <;> rcases hq with hq | hq | hq <;> simp [hq, nextSeq]
  all_goals rw [hq] at hstay haccept hrespond
  · exact ⟨hstay (.inl rfl), haccept .innerWait rfl fun _ => rfl⟩
  · exact ⟨hstay (.inr rfl), hrespond rfl false, hrespond rfl true⟩
  · exact ⟨hstay (.inl rfl), haccept .outerWait rfl fun _ => rfl⟩
  · exact ⟨hstay (.inr rfl), hrespond rfl false⟩

/-! ### Who writes what -/

/-- A transaction changes D only by CLEAR on an idle CORE (R103). -/
theorem cycleRegs_d_ne (c : ClockCycle) (x : Regs) (h : (cycleRegs c x).d ≠ x.d) :
    ∃ t v, c.req = some t ∧ decodeBus t = .wrCtrl v ∧ clearBit v = true ∧ x.seq = .idle := by
  rcases cycleRegs_cases c x with e | ⟨hq, t, ht, ⟨k, v, -, e⟩ | ⟨k, v, -, e⟩ | ⟨v, hd, hv, -⟩ | ⟨v, -, -, -, e⟩⟩
  case inr.inr.inr.inl => exact ⟨t, v, ht, hd, hv, hq⟩
  case inr.inr.inr.inr =>
    obtain ⟨-, -, hd, -, -, -⟩ := startAction_frame x
    exact absurd (by rw [e, hd]) h
  all_goals simp [e] at h

/-- The operation of the event word that the edge forms (R74, R77). -/
theorem decodeSeq_eventWord (canFail : Bool) (c : ClockCycle) (s : State) :
    decodeSeq (eventWord canFail c s) = decodeEvent s.regs.seq.code (eventHs c s) (eventHe canFail c s) := by
  simp [eventWord]

/-- Settles O39: in an idle CORE only CLEAR writes D; an event writes D in INNER_WAIT only, and R in OUTER_WAIT only. -/
theorem innerDigestChangesOnlyAtCaptureClearAndReset : Obligations.InnerDigestChangesOnlyAtCaptureClearAndReset := by
  intro s u h
  rcases step_cases h with ⟨hr, -⟩ | ⟨-, hq, hregs, -⟩ | ⟨-, -, x, hregs, -, rfl⟩
  · simp [hr]
  · rw [hregs]
    exact ⟨fun hd => .inr (.inr (cycleRegs_d_ne _ _ hd)), fun _ hw => by simp [hq] at hw⟩
  · obtain ⟨hkey, hmsg, -, -, hd⟩ := eventEffect_frame (eventHs (takeCycle s).1 s)
      (eventHe Config.hashCanFail (takeCycle s).1 s) x
    rw [← hregs]
    refine ⟨fun hne => .inr (.inl ?_), fun _ hw => ⟨?_, hkey, hmsg⟩⟩
    · obtain ⟨hq, hs, he⟩ := eventEffect_d_ne _ _ _ hne
      rw [decodeSeq_eventWord, ← hregs, hq, hs, he]
      rfl
    · rcases hw with hq | hq
      · exact .inr (eventEffect_r _ _ _ (by simp [hq]))
      · exact .inl (hd (by simp [hq]))

/-- Settles O40: no event writes a mask, and the bus part writes the bit that its accepted write names. -/
theorem maskBitsRecordAcceptedWrites : Obligations.MaskBitsRecordAcceptedWrites := by
  intro s u i hrst h hclear
  rcases step_cases h with ⟨hr, -⟩ | ⟨-, hq, hregs, -⟩ | ⟨-, hq, x, hregs, -, rfl⟩
  · simp [hr] at hrst
  · cases hreq : (takeCycle s).1.req with
    | none => simp [hregs, cycleRegs, hreq]
    | some t =>
      have hc : ¬∃ v, decodeBus t = .wrCtrl v ∧ clearBit v = true ∧ s.regs.seq = .idle :=
        fun ⟨v, hv⟩ => hclear ⟨t, v, hreq, hv⟩
      have hu : u.regs = busRegs (decodeBus t) s.regs := by simp [hregs, cycleRegs, hreq]
      rw [hu]
      simpa [hreq] using busRegs_masks_getLsbD _ _ i hc
  · obtain ⟨-, -, hk, hm, -⟩ := eventEffect_frame (eventHs (takeCycle s).1 s)
      (eventHe Config.hashCanFail (takeCycle s).1 s) x
    simp [hk, hm, hregs, hq]

/-! ### The error state -/

/-- A transaction clears ERR only by CLEAR or by an accepted START (R210). -/
theorem cycleRegs_err_falls (c : ClockCycle) (x : Regs) (hx : x.err = true) (h : (cycleRegs c x).err = false) :
    ∃ t v, c.req = some t ∧ decodeBus t = .wrCtrl v ∧ x.seq = .idle ∧
      (clearBit v = true ∨
       (startBit v = true ∧ x.kwm = 0xFF#8 ∧ x.mwm = 0xFF#8 ∧ (cycleRegs c x).seq = .innerReq)) := by
  rcases cycleRegs_cases c x with
    e | ⟨hq, t, ht, ⟨k, v, -, e⟩ | ⟨k, v, -, e⟩ | ⟨v, hd, hv, -⟩ | ⟨v, hd, -, hv, e⟩⟩
  case inr.inr.inr.inl => exact ⟨t, v, ht, hd, hq, .inl hv⟩
  case inr.inr.inr.inr =>
    rcases startAction_cases x with ⟨-, e'⟩ | ⟨-, -, e'⟩ | ⟨hk, hm, e'⟩
    case inr.inr => exact ⟨t, v, ht, hd, hq, .inr ⟨hv, hk, hm, by simp [e, e']⟩⟩
    all_goals simp [e, e'] at h
  all_goals simp [e, hx] at h

/-- A transaction sets ERR only by a START that an idle CORE refuses, with code 1 or 2 by the masks (R102, R203). -/
theorem cycleRegs_err_rises (c : ClockCycle) (x : Regs) (hx : x.err = false) (h : (cycleRegs c x).err = true) :
    (cycleRegs c x).seq = .idle ∧
    (∃ t v, c.req = some t ∧ decodeBus t = .wrCtrl v ∧ startBit v = true ∧ clearBit v = false) ∧
    (((cycleRegs c x).errCode = 1#4 ∧ x.kwm ≠ 0xFF#8) ∨
     ((cycleRegs c x).errCode = 2#4 ∧ x.kwm = 0xFF#8 ∧ x.mwm ≠ 0xFF#8)) := by
  rcases cycleRegs_cases c x with
    e | ⟨-, t, ht, ⟨k, v, -, e⟩ | ⟨k, v, -, e⟩ | ⟨v, -, -, e⟩ | ⟨v, hd, hv1, hv0, e⟩⟩
  case inr.inr.inr.inr =>
    have hw : ∃ t v, c.req = some t ∧ decodeBus t = .wrCtrl v ∧ startBit v = true ∧ clearBit v = false :=
      ⟨t, v, ht, hd, hv0, hv1⟩
    rcases startAction_cases x with ⟨hk, e'⟩ | ⟨hk, hm, e'⟩ | ⟨-, -, e'⟩
    · exact ⟨by simp [e, e'], hw, .inl ⟨by simp [e, e'], hk⟩⟩
    · exact ⟨by simp [e, e'], hw, .inr ⟨by simp [e, e'], hk, hm⟩⟩
    · simp [e, e'] at h
  all_goals simp [e, hx] at h

/-- An event that sets ERR is a failing response in a WAIT state (R160, R165). -/
theorem eventEffect_err_rises (hs he : Bool) (s : State) (hx : s.regs.err = false)
    (h : (eventEffect hs he s).regs.err = true) : s.regs.seq.isWait = true ∧ hs = true ∧ he = true := by
  simpa [eventEffect_err, hx, and_assoc] using h

/-- Settles O41: from IDLE by what a transaction does to ERR, from a busy state by what an event does to it. -/
theorem errorStateIsEnteredAndLeftOnlyAsListed : Obligations.ErrorStateIsEnteredAndLeftOnlyAsListed := by
  intro s u h
  rcases step_cases h with ⟨hr, hregs, -⟩ | ⟨hr, hq, hregs, -⟩ | ⟨hr, -, x, hregs, -, rfl⟩
  · exact ⟨fun _ _ => .inl hr, fun _ he => by simp [hregs, Regs.reset] at he⟩
  · rw [hregs]
    refine ⟨fun hx he => .inr (cycleRegs_err_falls _ _ hx he), fun hx he => ?_⟩
    obtain ⟨hidle, hstart, hcode⟩ := cycleRegs_err_rises _ _ hx he
    exact ⟨hr, hidle, .inl ⟨hq, hstart, hcode⟩⟩
  · rw [← hregs]
    refine ⟨fun hx he => by simp [eventEffect_err, hx] at he, fun hx he => ?_⟩
    obtain ⟨hw, hs1, he1⟩ := eventEffect_err_rises _ _ _ hx he
    simp only [decodeSeq_eventWord, hs1, he1, eventEffect_of_failure x hw, ← hregs]
    refine ⟨hr, trivial, .inr ⟨trivial, ?_⟩⟩
    rcases (isWait_iff _).mp hw with hq | hq <;> rw [hq]
    · exact .inl ⟨rfl, rfl⟩
    · exact .inr ⟨rfl, rfl⟩

/-! ### Reading the masks -/

/-- Settles O13. -/
theorem readWmaskShowsBothMasks : Obligations.ReadWmaskShowsBothMasks := by
  intro s
  refine ⟨fun t hw ha => ?_, s.regs.wmaskWord, rfl, ?_, ?_, ?_⟩
  · rw [decodeBus, hw, ha]
    rfl
  all_goals
    apply BitVec.eq_of_getLsbD_eq
    intro k hk
    simp only [Regs.wmaskWord, BitVec.getLsbD_extractLsb', BitVec.getLsbD_setWidth, BitVec.getLsbD_append, hk]
  · simp [hk, show k < 32 by omega]
  · simp [show 8 + k < 32 by omega]
  · simp [show ¬16 + k < 8 by omega, show 8 ≤ 16 + k - 8 by omega]

/-! ### What the secrets may influence -/

/-- The registers with KEY, D and R blanked: what R21, R24 and R182 leave to see. -/
def hideRegs (x : Regs) : Regs := { x with key := zeros8, d := zeros8, r := zeros8 }

/-- The state with the secrets of CORE and the contents of the block in flight blanked, and no response. -/
def hideState (s : State) : State :=
  { s with regs := hideRegs s.regs, hp := s.hp.map (fun _ => Vector.replicate 16 0#32), rsp := none }

/-- Two states are the same but for the secrets exactly when blanking them gives the same state. -/
theorem sameButSecrets_iff (s t : State) : SameButSecrets s t ↔ hideState s = hideState t := by
  obtain ⟨⟨key, msg, d, r, kwm, mwm, seq, done, err, errCode⟩, hp, env, draws, rsp⟩ := s
  obtain ⟨⟨key', msg', d', r', kwm', mwm', seq', done', err', errCode'⟩, hp', env', draws', rsp'⟩ := t
  cases hp <;> cases hp' <;> simp [SameButSecrets, hideState, hideRegs, and_assoc]

theorem hideRegs_startAction (x : Regs) : hideRegs (startAction x) = startAction (hideRegs x) := by
  simp only [startAction, apply_ite hideRegs]
  rfl

/-- What a BUS operation leaves to see in the registers depends on what was to see in them only. -/
theorem hideRegs_busRegs (i : Instr) (x : Regs) : hideRegs (busRegs i x) = hideRegs (busRegs i (hideRegs x)) := by
  cases i
  case wrCtrl v =>
    simp only [busRegs, apply_ite hideRegs, hideRegs_startAction]
    rfl
  case wrKey k v | wrMsg k v =>
    simp only [busRegs, apply_ite hideRegs]
    rfl
  all_goals rfl

/-- The same of an event and the state. -/
theorem hideState_eventEffect (hs he : Bool) (s : State) :
    hideState (eventEffect hs he s) = hideState (eventEffect hs he (hideState s)) := by
  obtain ⟨⟨key, msg, d, r, kwm, mwm, seq, done, err, errCode⟩, hp, env, draws, rsp⟩ := s
  cases hp <;> cases seq <;> cases hs <;> cases he <;> rfl

theorem busRegs_congr (i : Instr) {x y : Regs} (h : hideRegs x = hideRegs y) :
    hideRegs (busRegs i x) = hideRegs (busRegs i y) := by
  rw [hideRegs_busRegs, h, ← hideRegs_busRegs]

theorem cycleRegs_congr (c : ClockCycle) {x y : Regs} (h : hideRegs x = hideRegs y) :
    hideRegs (cycleRegs c x) = hideRegs (cycleRegs c y) := by
  cases hreq : c.req with
  | none => simpa [cycleRegs, hreq] using h
  | some t => simpa [cycleRegs, hreq] using busRegs_congr (decodeBus t) h

theorem eventEffect_congr (hs he : Bool) {s t : State} (h : hideState s = hideState t) :
    hideState (eventEffect hs he s) = hideState (eventEffect hs he t) := by
  rw [hideState_eventEffect, h, ← hideState_eventEffect]

/-- New registers that are the same to see leave two such states the same to see, whatever the responses. -/
theorem withRegs_congr {s t : State} (h : hideState s = hideState t) {x y : Regs} (hxy : hideRegs x = hideRegs y)
    (v w : Option Response) : hideState { s with regs := x, rsp := v } = hideState { t with regs := y, rsp := w } := by
  change { hideState s with regs := hideRegs x } = { hideState t with regs := hideRegs y }
  rw [h, hxy]

/-- The pins of a cycle are no secret. -/
theorem takeCycle_hideState (s : State) : takeCycle (hideState s) = ((takeCycle s).1, hideState (takeCycle s).2) := by
  obtain ⟨regs, hp, env, draws, rsp⟩ := s
  cases env <;> rfl

theorem takeCycle_congr {s t : State} (h : hideState s = hideState t) :
    (takeCycle s).1 = (takeCycle t).1 ∧ hideState (takeCycle s).2 = hideState (takeCycle t).2 := by
  simpa [takeCycle_hideState] using congrArg takeCycle h

theorem eventHs_hideState (c : ClockCycle) (s : State) : eventHs c (hideState s) = eventHs c s := by
  simp [eventHs, acceptsBlock, responds, hideState, hideRegs]

/-- What a clock edge leaves to see depends on what was to see before it only. -/
theorem clockEdge_congr (canFail : Bool) {s t u v : State} (h : hideState s = hideState t)
    (hu : clockEdge canFail s = .next u) (hv : clockEdge canFail t = .next v) : hideState u = hideState v := by
  obtain ⟨hcycle, htake⟩ := takeCycle_congr h
  have hseq : (takeCycle s).2.regs.seq = (takeCycle t).2.regs.seq := (congrArg (fun z : State => z.regs.seq) htake :)
  have hhs := congrArg (eventHs (takeCycle t).1) htake
  have hhe := congrArg (eventHe canFail (takeCycle t).1) htake
  rw [eventHs_hideState, eventHs_hideState] at hhs
  change eventHe _ _ (takeCycle s).2 = eventHe _ _ (takeCycle t).2 at hhe
  cases Host.Outcome.next.inj ((clockEdge_eq canFail s).symm.trans hu)
  cases Host.Outcome.next.inj ((clockEdge_eq canFail t).symm.trans hv)
  rw [hcycle, hseq, hhs, hhe]
  split
  · exact (congrArg (fun z : State => { z with regs := hideRegs Regs.reset, hp := none }) htake :)
  · split
    · exact withRegs_congr htake (cycleRegs_congr _ (congrArg State.regs htake :)) _ _
    · exact eventEffect_congr _ _ htake

/-- A BUS operation's response tells no secret but a MAC that DONE shows (R113, R181). -/
theorem busRsp_hideRegs (i : Instr) (x : Regs) (h : ∀ k, i = .rdResult k → x.done = false) :
    busRsp i (hideRegs x) = busRsp i x := by
  cases i
  case rdResult k => simp [busRsp, resultMux, hideRegs, h k rfl]
  all_goals rfl

/-- Two states that are the same to see answer a BUS operation alike, but for a RESULT read of a shown MAC. -/
theorem busRsp_congr (i : Instr) {x y : Regs} (h : hideRegs x = hideRegs y) :
    busRsp i x = busRsp i y ∨ ∃ k, i = .rdResult k ∧ x.done = true := by
  have hdone : x.done = y.done := (congrArg Regs.done h :)
  by_cases hk : ∃ k, i = .rdResult k ∧ x.done = true
  · exact .inr hk
  · have hx : ∀ k, i = .rdResult k → x.done = false := fun k e => by
      simpa using fun hd => hk ⟨k, e, hd⟩
    rw [← busRsp_hideRegs i x hx, ← busRsp_hideRegs i y (fun k e => hdone ▸ hx k e), h]
    exact .inl rfl

/-- The response that a clock edge drives (R100, R121). -/
theorem clockEdge_rsp (canFail : Bool) (s u : State) (h : clockEdge canFail s = .next u) :
    u.rsp = if (takeCycle s).1.rst then resetResponse (takeCycle s).1 else cycleRsp (takeCycle s).1 s.regs := by
  rcases clockEdge_cases _ _ _ h with ⟨hr, rfl⟩ | ⟨hr, -, rfl⟩ | ⟨hr, -, rfl⟩ <;> simp [hr, resetEdge]

/-- Settles O49: a transaction acts on the two states as on the blanked state they share; RESULT alone reads a blanked
register, and only a MAC that is shown. -/
theorem transactionsRevealNeitherKeyNorInnerDigest : Obligations.TransactionsRevealNeitherKeyNorInnerDigest := by
  intro t s1 s2 hsame hmac
  rw [sameButSecrets_iff] at hsame
  have hregs : hideRegs s1.regs = hideRegs s2.regs := congrArg State.regs hsame
  have hdone : s1.regs.done = s2.regs.done := (congrArg Regs.done hregs :)
  have hafter := busRegs_congr (decodeBus t) hregs
  refine ⟨_, _, exec_bus _ s1 (decodeBus_isBus t), exec_bus _ s2 (decodeBus_isBus t), ?_, ?_, fun hu => ?_⟩
  · rcases busRsp_congr (decodeBus t) hregs with h | ⟨k, hk, hd⟩
    · simp [h]
    · simp [hk, busRsp, resultMux, ← hdone, hmac hd]
  · exact (sameButSecrets_iff _ _).mpr (withRegs_congr hsame hafter _ _)
  · have hu2 : (busRegs (decodeBus t) s2.regs).done = true := (congrArg Regs.done hafter :).symm.trans hu
    obtain ⟨hd, hr1⟩ := busRegs_done _ _ hu
    exact hr1.trans ((hmac hd).trans (busRegs_done _ _ hu2).2.symm)

/-- Settles O50: a clock edge acts on the two states as on the blanked state they share, and drives the response of the
cycle's transaction. -/
theorem clockEdgesRevealTheSecretsOnlyThroughTheMac : Obligations.ClockEdgesRevealTheSecretsOnlyThroughTheMac := by
  intro s1 s2 u1 u2 hsame h1 h2
  rw [sameButSecrets_iff] at hsame ⊢
  have hregs : hideRegs s1.regs = hideRegs s2.regs := congrArg State.regs hsame
  refine ⟨clockEdge_congr _ hsame h1 h2, ?_⟩
  rw [clockEdge_rsp _ _ _ h1, clockEdge_rsp _ _ _ h2, ← (takeCycle_congr hsame).1]
  cases hreq : (takeCycle s1).1.req with
  | none => exact .inl (by simp [resetResponse, cycleRsp, hreq])
  | some t =>
    rcases busRsp_congr (decodeBus t) hregs with h | ⟨k, hk, hd⟩
    · exact .inl (by simp [resetResponse, cycleRsp, hreq, h])
    · exact .inr ⟨t, k, rfl, hk, hd⟩

end Sys2Proof.Proofs
end

section
/-! PROOFS. The statements about the register space: which transactions write CORE, a clock edge as atomic moves, and
transactions beside transitions. -/

namespace Sys2Proof.Proofs

open Sys2Proof.Machine Sys2Proof.Laws

/-! ### A clock edge as atomic moves -/

/-- The primitive accepts a block only while it holds none (R153(a)). -/
theorem hp_of_eventHs_req {c : ClockCycle} {s : State} (hq : s.regs.seq.isReq = true) (h : eventHs c s = true) :
    s.hp = none := by
  simp only [eventHs, hq, if_true, acceptsBlock, Bool.and_eq_true, Option.isNone_iff_eq_none] at h
  exact h.2

/-- The primitive responds only while it holds a block (R153(c)). -/
theorem hp_of_eventHs_wait {c : ClockCycle} {s : State} (hq : s.regs.seq.isWait = true) (h : eventHs c s = true) :
    ∃ b, s.hp = some b := by
  have hreq : s.regs.seq.isReq = false := by
    rcases (isWait_iff _).mp hq with h | h <;> simp [h, SeqState.isReq]
  simp only [eventHs, hreq, hq, Bool.false_eq_true, if_false, if_true, responds, Bool.and_eq_true,
    Option.isSome_iff_exists] at h
  exact h.2

/-- A response fails only when HASH_CAN_FAIL (R154). -/
theorem canFail_of_eventHe {canFail : Bool} {c : ClockCycle} {s : State} (hq : s.regs.seq.isWait = true)
    (h : eventHe canFail c s = true) : canFail = true := by
  simp only [eventHe, hq, if_true, responseErr, Bool.and_eq_true] at h
  exact h.1

/-- The state `u` is, for CORE and the block in flight, `s` itself or what one atomic move makes of it. -/
def AtMostOneMove (canFail : Bool) (s u : State) : Prop :=
  ∃ x, (x = s ∨ AtomicMove canFail s x) ∧ SameCore x u

theorem atMostOneMove_of_sameCore (canFail : Bool) {s u : State} (h : SameCore s u) : AtMostOneMove canFail s u :=
  ⟨s, .inl rfl, h⟩

theorem atMostOneMove_of_move {canFail : Bool} {s x u : State} (hm : AtomicMove canFail s x) (h : SameCore x u) :
    AtMostOneMove canFail s u :=
  ⟨x, .inr hm, h⟩

theorem isReq_iff (q : SeqState) : q.isReq = true ↔ q = .innerReq ∨ q = .outerReq := by
  cases q <;> simp [SeqState.isReq]

/-- With HS = 0 an event of a REQ or WAIT state is a hold (R156, R158, R161, R163). -/
theorem eventEffect_hold (he : Bool) (s : State) (hq : s.regs.seq.isReq = true ∨ s.regs.seq.isWait = true) :
    eventEffect false he s = s := by
  rw [isReq_iff, isWait_iff] at hq
  rcases hq with (hq | hq) | (hq | hq) <;> simp [eventEffect, hq]

/-- In a REQ state an event is no move, or the issue of a block to a primitive that holds none. -/
theorem atMostOneMove_event_req (canFail hs he : Bool) {s t : State} (hst : SameCore s t)
    (hq : s.regs.seq.isReq = true) (hhp : hs = true → s.hp = none) :
    AtMostOneMove canFail s (eventEffect hs he t) := by
  have hregs := hst.1
  cases hs
  case false =>
    rw [eventEffect_hold he t (.inl (hregs ▸ hq))]
    exact atMostOneMove_of_sameCore _ hst
  case true =>
    rcases (isReq_iff _).mp hq with hseq | hseq
    · exact atMostOneMove_of_move (.issueInner s hseq (hhp rfl))
        (by simp [SameCore, eventEffect, ← hregs, hseq, assembleBlock_inner])
    · exact atMostOneMove_of_move (.issueOuter s hseq (hhp rfl))
        (by simp [SameCore, eventEffect, ← hregs, hseq, assembleBlock_outer])

/-- In a WAIT state an event is no move, or a response to the block in flight, failing only when HASH_CAN_FAIL. -/
theorem atMostOneMove_event_wait {canFail : Bool} (hs he : Bool) {s t : State} (hst : SameCore s t)
    (hq : s.regs.seq.isWait = true) (hhp : hs = true → ∃ b, s.hp = some b) (hcan : he = true → canFail = true) :
    AtMostOneMove canFail s (eventEffect hs he t) := by
  have ⟨hregs, hcore⟩ := hst
  cases hs
  case false =>
    rw [eventEffect_hold he t (.inr (hregs ▸ hq))]
    exact atMostOneMove_of_sameCore _ hst
  case true =>
    obtain ⟨b, hb⟩ := hhp rfl
    have hseq := (isWait_iff _).mp hq
    cases he
    case true =>
      refine atMostOneMove_of_move (.fail s b (hcan rfl) hseq hb) ?_
      rw [eventEffect_of_failure t (hregs ▸ hq), hregs]
      exact ⟨rfl, rfl⟩
    case false =>
      have hdigest : hrspDigest t = Config.hashFn b := by simp [hrspDigest, ← hcore, hb]
      rcases hseq with hseq | hseq
      · exact atMostOneMove_of_move (.respondInner s b hseq hb)
          (by simp [SameCore, eventEffect, ← hregs, hseq, hdigest])
      · exact atMostOneMove_of_move (.respondOuter s b hseq hb)
          (by simp [SameCore, eventEffect, ← hregs, hseq, hdigest])

/-- The bus part of a cycle is no move, or the cycle's transaction. -/
theorem atMostOneMove_cycleRegs (canFail : Bool) (c : ClockCycle) {s u : State}
    (hregs : u.regs = cycleRegs c s.regs) (hhp : u.hp = s.hp) : AtMostOneMove canFail s u := by
  cases hreq : c.req with
  | none => exact atMostOneMove_of_sameCore _ ⟨by simp [hregs, cycleRegs, hreq], hhp.symm⟩
  | some t =>
    exact atMostOneMove_of_move (.transaction t s _ (exec_bus _ s (decodeBus_isBus t)))
      ⟨by simp [hregs, cycleRegs, hreq], hhp.symm⟩

/-- One move is enough: while CORE is idle no event moves it, and while it is busy no transaction does. -/
theorem atMostOneMove_clockEdge (canFail : Bool) (s u : State)
    (hused : s.regs.seq = .idle ∨ s.regs.seq.isReq = true ∨ s.regs.seq.isWait = true)
    (h : clockEdge canFail s = .next u) : AtMostOneMove canFail s u := by
  rcases clockEdge_cases _ _ _ h with ⟨-, rfl⟩ | ⟨-, -, rfl⟩ | ⟨-, hbusy, rfl⟩
  · exact atMostOneMove_of_move (.reset s) ⟨rfl, rfl⟩
  · exact atMostOneMove_cycleRegs canFail _ rfl (takeCycle_hp s)
  · have hst : SameCore s { (takeCycle s).2 with rsp := cycleRsp (takeCycle s).1 s.regs } :=
      ⟨(takeCycle_regs s).symm, (takeCycle_hp s).symm⟩
    rcases hused with hq | hq | hq
    · exact absurd hq hbusy
    · exact atMostOneMove_event_req _ _ _ hst hq (hp_of_eventHs_req hq)
    · exact atMostOneMove_event_wait _ _ hst hq (hp_of_eventHs_wait hq) (canFail_of_eventHe hq)

/-- Settles O51: one move is already enough, so the second of the two is left out. -/
theorem clockEdgeIsAtMostTwoAtomicMoves : Obligations.ClockEdgeIsAtMostTwoAtomicMoves := by
  intro canFail s u hused h
  have hused' : s.regs.seq = .idle ∨ s.regs.seq.isReq = true ∨ s.regs.seq.isWait = true := by
    rcases hused with hq | hq | hq | hq | hq <;> simp [hq, SeqState.isReq, SeqState.isWait]
  obtain ⟨x, hx, hxu⟩ := atMostOneMove_clockEdge canFail s u hused' h
  exact ⟨x, x, hx, .inl rfl, hxu⟩

/-! ### Which transactions write CORE -/

/-- The operations that can write CORE's registers: a CTRL write, a key word and a message word (R57). -/
def writesCore : Instr → Bool
  | .wrCtrl _ | .wrKey _ _ | .wrMsg _ _ => true
  | _ => false

theorem busRegs_of_not_writesCore {i : Instr} (x : Regs) (h : writesCore i = false) : busRegs i x = x := by
  rcases busRegs_cases i x with hx | ⟨-, ⟨k, v, rfl, -⟩ | ⟨k, v, rfl, -⟩ | ⟨v, rfl, -⟩ | ⟨v, rfl, -⟩⟩
  · exact hx
  all_goals simp [writesCore] at h

/-- The KEY window and the MSG window are offsets 0x20 to 0x5F (spec/20_memory.md R51). -/
theorem windowOf_key_or_msg (addr : Offset) (h : windowOf addr = 1#3 ∨ windowOf addr = 2#3) :
    0x20 ≤ addr.toNat ∧ addr.toNat < 0x60 := by
  revert addr; decide

/-- A register operation that can write CORE is a write to CTRL, to the KEY window or to the MSG window (R57, R76). -/
theorem fields_of_writesCore_decodeRegister (wr : Bool) (addr : Offset) (data : Word)
    (h : writesCore (decodeRegister wr addr data) = true) :
    wr = true ∧ (addr = 0x00#8 ∨ (0x20 ≤ addr.toNat ∧ addr.toNat < 0x60)) := by
  unfold decodeRegister at h
  simp only [apply_ite writesCore] at h
  cases wr <;> simp only [writesCore, Bool.false_eq_true, if_false, if_true, ite_self] at h
  split_ifs at h with hctrl _ _ _ _ hkey hmsg
  · exact ⟨rfl, .inl hctrl⟩
  · exact ⟨rfl, .inr (windowOf_key_or_msg _ (.inl hkey))⟩
  · exact ⟨rfl, .inr (windowOf_key_or_msg _ (.inr hmsg))⟩

/-- A transaction whose operation can write CORE is one to a register: the reserved and misaligned ones write nothing. -/
theorem fields_of_writesCore (t : BusWord) (h : writesCore (decodeBus t) = true) :
    busWr t = true ∧ (busAddr t = 0x00#8 ∨ (0x20 ≤ (busAddr t).toNat ∧ (busAddr t).toNat < 0x60)) := by
  refine fields_of_writesCore_decodeRegister _ _ (busData t) ?_
  unfold decodeBus decodeFields at h
  simp only [apply_ite writesCore] at h
  simp only [writesCore, Bool.if_false_left, Bool.and_eq_true] at h
  obtain ⟨-, -, -, -, -, h⟩ := h
  exact h

/-- Settles O23: only an operation that can write CORE changes a register, and no read and no other offset gives one. -/
theorem readsHaveNoSideEffect : Obligations.ReadsHaveNoSideEffect := by
  intro t s
  have hkeep : ¬writesCore (decodeBus t) = true → busRegs (decodeBus t) s.regs = s.regs := fun h =>
    busRegs_of_not_writesCore _ (Bool.eq_false_iff.mpr h)
  refine ⟨_, _, exec_bus _ s (decodeBus_isBus t), rfl, fun hrd => ?_, fun hctrl hwindows => ?_⟩
  · rw [hkeep]
    intro h
    obtain ⟨hwr, -⟩ := fields_of_writesCore t h
    simp [hrd] at hwr
  · rw [hkeep]
    intro h
    obtain ⟨-, haddr | haddr⟩ := fields_of_writesCore t h
    · exact hctrl haddr
    · exact hwindows haddr

/-! ### A transaction and a transition at one edge -/

/-- No event reads or writes the response. -/
theorem eventEffect_withRsp (hs he : Bool) (s : State) (a : Option Response) :
    eventEffect hs he { s with rsp := a } = { eventEffect hs he s with rsp := a } := by
  obtain ⟨⟨key, msg, d, r, kwm, mwm, seq, done, err, errCode⟩, hp, env, draws, rsp⟩ := s
  cases seq <;> cases hs <;> cases he <;> rfl

/-- Settles O53: an idle CORE's transition changes nothing, and a busy CORE's registers no transaction changes, before
the transition or after it. -/
theorem transactionAndTransitionCommute : Obligations.TransactionAndTransitionCommute := by
  intro t s ub us hs he hub hus hidle
  by_cases hq : s.regs.seq = .idle
  · rw [hq, exec_event_idle] at hus
    cases hus
    exact ⟨ub, ub, by rw [hq, exec_event_idle], hub, rfl, rfl⟩
  · have hq' : us.regs.seq ≠ .idle := fun h => hq (hidle.mpr h)
    rw [exec_event] at hus
    rw [exec_bus _ _ (decodeBus_isBus t), busRegs_busy _ _ hq] at hub
    cases hus
    cases hub
    refine ⟨_, _, exec_event hs he { s with rsp := some (busRsp (decodeBus t) s.regs) },
      exec_bus _ _ (decodeBus_isBus t), ?_⟩
    rw [eventEffect_withRsp, busRegs_busy _ _ hq']
    exact ⟨rfl, rfl⟩

end Sys2Proof.Proofs
end

section
/-! PROOFS. The encodings: the row of R76 that each offset selects, decoding and encoding as inverses of each other, the
match/mask tables, and the word that a step runs. -/

namespace Sys2Proof.Proofs

open Sys2Proof.Machine Sys2Proof.Laws

/-! ### The operation of each row of R76 -/

theorem decodeFields_of_misalignedA {a : Offset} (h : isMisalignedA a = true) (wr : Bool) (d : Word) :
    decodeFields wr a d = .busMisalignedA wr a (carriedData wr d) := if_pos h

theorem decodeFields_of_misalignedB {a : Offset} (h : isMisalignedB a = true) (wr : Bool) (d : Word) :
    decodeFields wr a d = .busMisalignedB wr a (carriedData wr d) := by
  simp [decodeFields, isMisalignedB_facts a h, h]

@[simp] theorem decodeFields_reservedA (wr : Bool) (d : Word) :
    decodeFields wr 0x14#8 d = .busReservedA wr (carriedData wr d) := rfl

theorem decodeFields_of_reservedB {a : Offset} (h : isReservedB a = true) (wr : Bool) (d : Word) :
    decodeFields wr a d = .busReservedB wr a (carriedData wr d) := by
  obtain ⟨hA, hB, h14⟩ := isReservedB_facts a h
  simp [decodeFields, hA, hB, h14, h]

theorem decodeFields_of_reservedC {a : Offset} (h : isReservedC a = true) (wr : Bool) (d : Word) :
    decodeFields wr a d = .busReservedC wr a (carriedData wr d) := by
  obtain ⟨hA, hB, h14, hR⟩ := isReservedC_facts a h
  simp [decodeFields, hA, hB, h14, hR, h]

@[simp] theorem decodeFields_ctrl (wr : Bool) (d : Word) :
    decodeFields wr 0x00#8 d = if wr then .wrCtrl d else .rdCtrl := rfl

@[simp] theorem decodeFields_status (wr : Bool) (d : Word) :
    decodeFields wr 0x04#8 d = if wr then .wrStatus d else .rdStatus := rfl

@[simp] theorem decodeFields_wmask (wr : Bool) (d : Word) :
    decodeFields wr 0x08#8 d = if wr then .wrWmask d else .rdWmask := rfl

@[simp] theorem decodeFields_ipad (wr : Bool) (d : Word) :
    decodeFields wr 0x0C#8 d = if wr then .wrIpad d else .rdIpad := rfl

@[simp] theorem decodeFields_opad (wr : Bool) (d : Word) :
    decodeFields wr 0x10#8 d = if wr then .wrOpad d else .rdOpad := rfl

/-! ### Decoding after encoding -/

/-- Settles O1: the word's fields are the operands, and each row's offset selects the row in R75's order. -/
theorem decodingAnEncodedOperationGivesItBack : Obligations.DecodingAnEncodedOperationGivesItBack := by
  intro i h
  cases i <;> simp only [encode, decode, decodeBus_packBus, decodeSeq_packSeq]
  case rdKey k => exact decodeFields_key false k _
  case wrKey k d => exact decodeFields_key true k d
  case rdMsg k => exact decodeFields_msg false k _
  case wrMsg k d => exact decodeFields_msg true k d
  case rdResult k => exact decodeFields_result false k _
  case wrResult k d => exact decodeFields_result true k d
  case busReservedA wr d => rw [decodeFields_reservedA, carriedData_of_canonical wr d h]
  case busReservedB wr a d =>
    obtain ⟨ha, hd⟩ := Bool.and_eq_true_iff.mp h
    rw [decodeFields_of_reservedB ha, carriedData_of_canonical wr d hd]
  case busReservedC wr a d =>
    obtain ⟨ha, hd⟩ := Bool.and_eq_true_iff.mp h
    rw [decodeFields_of_reservedC ha, carriedData_of_canonical wr d hd]
  case busMisalignedA wr a d =>
    obtain ⟨ha, hd⟩ := Bool.and_eq_true_iff.mp h
    rw [decodeFields_of_misalignedA ha, carriedData_of_canonical wr d hd]
  case busMisalignedB wr a d =>
    obtain ⟨ha, hd⟩ := Bool.and_eq_true_iff.mp h
    rw [decodeFields_of_misalignedB ha, carriedData_of_canonical wr d hd]
  case seqIllegalStateA s1 hs he => cases s1 <;> rfl
  all_goals rfl

/-! ### Encoding after decoding -/

@[simp] theorem readCarriesNoData_carriedData (wr : Bool) (d : Word) :
    readCarriesNoData wr (carriedData wr d) = true := by
  cases wr <;> simp [readCarriesNoData, carriedData]

/-- Each kind of offset gives an operation of its row, whose word has the fields it was read from (R71, R75). -/
theorem decodeFields_canonical (wr : Bool) (a : Offset) (d : Word) :
    (decodeFields wr a d).wellFormed = true ∧
      encode (decodeFields wr a d) = .bus (packBus wr a (carriedData wr d)) := by
  rcases offset_cases a with
    h | h | rfl | h | h | rfl | rfl | rfl | rfl | rfl | ⟨k, rfl⟩ | ⟨k, rfl⟩ | ⟨k, rfl⟩
  · rw [decodeFields_of_misalignedA h]
    exact ⟨by simp [Instr.wellFormed, h], rfl⟩
  · rw [decodeFields_of_misalignedB h]
    exact ⟨by simp [Instr.wellFormed, h], rfl⟩
  · rw [decodeFields_reservedA]
    exact ⟨by simp [Instr.wellFormed], rfl⟩
  · rw [decodeFields_of_reservedB h]
    exact ⟨by simp [Instr.wellFormed, h], rfl⟩
  · rw [decodeFields_of_reservedC h]
    exact ⟨by simp [Instr.wellFormed, h], rfl⟩
  all_goals
    simp only [decodeFields_ctrl, decodeFields_status, decodeFields_wmask, decodeFields_ipad, decodeFields_opad,
      decodeFields_key, decodeFields_msg, decodeFields_result]
    cases wr <;> exact ⟨rfl, rfl⟩

/-- The event words lose nothing in decoding (R77). -/
theorem decodeSeq_canonical (e : SeqWord) :
    (decodeSeq e).wellFormed = true ∧ encode (decodeSeq e) = .seq e := by
  revert e; decide

/-- Settles O2, by the kinds of offset for a BUS word and by the 32 event words. -/
theorem encodingADecodedWordGivesItsCanonicalForm : Obligations.EncodingADecodedWordGivesItsCanonicalForm
  | .bus t => decodeFields_canonical (busWr t) (busAddr t) (busData t)
  | .seq e => decodeSeq_canonical e

/-! ### The match/mask tables -/

/-- Two rows that hold of one word agree on the bits that both fix. -/
theorem patterns_agree_of_holds {n : Nat} {r r' : TableRow n} {x : BitVec n} (h : r.holds x = true)
    (h' : r'.holds x = true) : r.pattern &&& r'.mask = r'.pattern &&& r.mask := by
  rw [← of_decide_eq_true h, ← of_decide_eq_true h', BitVec.and_assoc, BitVec.and_assoc, BitVec.and_comm r.mask]

/-- The rows of the table are pairwise disjoint: two that agree on the bits that both fix are one row. -/
def RowsDisjoint {n : Nat} (table : List (TableRow n)) : Prop :=
  ∀ r ∈ table, ∀ r' ∈ table, r.pattern &&& r'.mask = r'.pattern &&& r.mask → r.mnemonic = r'.mnemonic

theorem rowsDisjoint_busTable : RowsDisjoint busTable := by
  unfold RowsDisjoint; decide

theorem rowsDisjoint_seqTable : RowsDisjoint seqTable := by
  unfold RowsDisjoint; decide

/-- In a table with disjoint rows a word is in rows of one name only. -/
theorem RowsDisjoint.name_unique {n : Nat} {table : List (TableRow n)} (hd : RowsDisjoint table) {x : BitVec n}
    {name name' : String} (h : table.any (fun r => r.mnemonic == name && r.holds x) = true)
    (h' : table.any (fun r => r.mnemonic == name' && r.holds x) = true) : name = name' := by
  simp only [List.any_eq_true, Bool.and_eq_true, beq_iff_eq] at h h'
  obtain ⟨r, hr, rfl, hx⟩ := h
  obtain ⟨r', hr', rfl, hx'⟩ := h'
  exact hd r hr r' hr' (patterns_agree_of_holds hx hx')

theorem inRowNamed_unique (x : OpWord) {name name' : String} (h : x.inRowNamed name = true)
    (h' : x.inRowNamed name' = true) : name = name' := by
  cases x with
  | bus t => exact rowsDisjoint_busTable.name_unique h h'
  | seq e => exact rowsDisjoint_seqTable.name_unique h h'

/-- No row of the BUS map fixes a bit of DATA (R76). -/
theorem busTable_data_free : ∀ r ∈ busTable, busData r.mask = 0#32 ∧ busData r.pattern = 0#32 := by decide

/-- The rows do not tell a BUS word from its canonical form, which differs in DATA only. -/
theorem inRowNamed_canonical (x : OpWord) (name : String) : x.canonical.inRowNamed name = x.inRowNamed name := by
  cases x with
  | seq e => rfl
  | bus t =>
    have h : ∀ r ∈ busTable, r.holds (canonicalBus t) = r.holds t := by
      intro r hr
      obtain ⟨hm, hp⟩ := busTable_data_free r hr
      rw [canonicalBus, holds_packBus r hm hp, ← holds_packBus r hm hp _ _ (busData t), packBus_fields]
    simp only [OpWord.canonical, OpWord.inRowNamed]
    rw [Bool.eq_iff_iff, List.any_eq_true, List.any_eq_true]
    exact exists_congr fun r => and_congr_right fun hr => by rw [h r hr]

/-- The word of a well-formed operation is in the row that bears its mnemonic. -/
theorem encode_inRowNamed (i : Instr) : EncodesInRow.Statement i := by
  cases i
  case wrCtrl => exact EncodesInRow.wrCtrl _
  case rdCtrl => exact EncodesInRow.rdCtrl
  case rdStatus => exact EncodesInRow.rdStatus
  case wrStatus => exact EncodesInRow.wrStatus _
  case rdWmask => exact EncodesInRow.rdWmask
  case wrWmask => exact EncodesInRow.wrWmask _
  case rdIpad => exact EncodesInRow.rdIpad
  case wrIpad => exact EncodesInRow.wrIpad _
  case rdOpad => exact EncodesInRow.rdOpad
  case wrOpad => exact EncodesInRow.wrOpad _
  case rdKey => exact EncodesInRow.rdKey _
  case wrKey => exact EncodesInRow.wrKey _ _
  case rdMsg => exact EncodesInRow.rdMsg _
  case wrMsg => exact EncodesInRow.wrMsg _ _
  case rdResult => exact EncodesInRow.rdResult _
  case wrResult => exact EncodesInRow.wrResult _ _
  case busReservedA => exact EncodesInRow.busReservedA _ _
  case busReservedB => exact EncodesInRow.busReservedB _ _ _
  case busReservedC => exact EncodesInRow.busReservedC _ _ _
  case busMisalignedA => exact EncodesInRow.busMisalignedA _ _ _
  case busMisalignedB => exact EncodesInRow.busMisalignedB _ _ _
  case seqIdle => exact EncodesInRow.seqIdle _ _
  case seqInnerReqHold => exact EncodesInRow.seqInnerReqHold _
  case seqIssueInner => exact EncodesInRow.seqIssueInner _
  case seqInnerWaitHold => exact EncodesInRow.seqInnerWaitHold _
  case seqCaptureInner => exact EncodesInRow.seqCaptureInner
  case seqFailInner => exact EncodesInRow.seqFailInner
  case seqOuterReqHold => exact EncodesInRow.seqOuterReqHold _
  case seqIssueOuter => exact EncodesInRow.seqIssueOuter _
  case seqOuterWaitHold => exact EncodesInRow.seqOuterWaitHold _
  case seqCaptureOuter => exact EncodesInRow.seqCaptureOuter
  case seqFailOuter => exact EncodesInRow.seqFailOuter
  case seqIllegalStateA => exact EncodesInRow.seqIllegalStateA _ _ _
  case seqIllegalStateB => exact EncodesInRow.seqIllegalStateB _ _

/-- Every word is in the row of the operation it decodes to: its canonical form is that operation's word. -/
theorem inRowNamed_decode (x : OpWord) : x.inRowNamed (decode x).mnemonic = true := by
  obtain ⟨hwf, henc⟩ := encodingADecodedWordGivesItsCanonicalForm x
  rw [← inRowNamed_canonical, ← henc]
  exact encode_inRowNamed _ hwf

/-- Settles O3: a word is in the row of its operation, and the rows are pairwise disjoint. -/
theorem decoderAgreesWithTheMatchMaskTables : Obligations.DecoderAgreesWithTheMatchMaskTables := by
  intro x name
  constructor
  · exact fun h => inRowNamed_unique x h (inRowNamed_decode x)
  · rintro rfl
    exact inRowNamed_decode x

/-! ### Words written out -/

/-- Settles O4, by running the decoder on each word. -/
theorem writtenOutWordsDecode : Obligations.WrittenOutWordsDecode := by
  unfold Obligations.WrittenOutWordsDecode
  decide

/-! ### The word a step runs -/

/-- A step without reset: the bus part of the cycle, then the event formed at its start (R74, R100). -/
theorem step_of_cycle {s : State} {c : ClockCycle} {rest : List ClockCycle} (henv : s.env = c :: rest)
    (hrst : c.rst = false) :
    step s = andThen (busPart c { s with env := rest })
      (exec (decodeSeq (packSeq s.regs.seq.code (eventHs c s) (eventHe Config.hashCanFail c s)))) := by
  obtain ⟨regs, hp, env, draws, rsp⟩ := s
  cases henv
  exact if_neg (by simp [takeCycle, hrst])

/-- A step without reset or transaction is the event alone. -/
theorem step_of_noTransaction {s : State} {c : ClockCycle} {rest : List ClockCycle} (henv : s.env = c :: rest)
    (hrst : c.rst = false) (hreq : c.req = none) :
    step s = exec (decodeSeq (packSeq s.regs.seq.code (eventHs c s) (eventHe Config.hashCanFail c s)))
      { s with env := rest, rsp := none } := by
  simp [step_of_cycle henv hrst, busPart, hreq, andThen]

/-- A step without reset and with a transaction is the event on the state that the transaction leaves. -/
theorem step_of_transaction {s u : State} {c : ClockCycle} {rest : List ClockCycle} {t : BusWord}
    (henv : s.env = c :: rest) (hrst : c.rst = false) (hreq : c.req = some t)
    (hu : exec (decodeBus t) { s with env := rest, rsp := none } = .next u) :
    step s = exec (decodeSeq (packSeq s.regs.seq.code (eventHs c s) (eventHe Config.hashCanFail c s))) u := by
  simp [step_of_cycle henv hrst, busPart, hreq, hu, andThen]

/-- Settles O5: HS and HE are `eventHs` and `eventHe`, whose gating by the block in flight each SEQ state fixes. -/
theorem stepRunsTheDecodedTransactionAndEvent : Obligations.StepRunsTheDecodedTransactionAndEvent := by
  intro s c rest henv hrst
  refine ⟨eventHs c s, eventHe Config.hashCanFail c s, ?_, ?_, step_of_noTransaction henv hrst,
    fun t u hreq hu => step_of_transaction henv hrst hreq hu⟩
  · rintro (hq | hq) <;> simp [eventHs, acceptsBlock, hq, SeqState.isReq]
  · rintro (hq | hq) <;>
      simp [eventHs, eventHe, responds, responseErr, hq, SeqState.isReq, SeqState.isWait]

/-! ### The placed word -/

@[simp] theorem withFetchWord_bus (s : State) (t : BusWord) :
    s.withFetchWord 41 t.toNat = placeWord (.bus t) s := by
  simp [State.withFetchWord, tableWord, t.isLt]

@[simp] theorem withFetchWord_seq (s : State) (e : SeqWord) :
    s.withFetchWord 5 e.toNat = placeWord (.seq e) s := by
  simp [State.withFetchWord, tableWord, e.isLt]

/-- In the cycle of a placed BUS word the primitive does nothing. -/
@[simp] theorem eventHs_transactionCycle (t : BusWord) (s : State) : eventHs (transactionCycle t) s = false := by
  simp [eventHs, acceptsBlock, responds, transactionCycle]

/-- A placed BUS word is the whole effect of the next step: IDLE has no event, and a used busy state holds. -/
theorem step_placeWord_bus (t : BusWord) (s : State)
    (hused : s.regs.seq = .idle ∨ s.regs.seq.isReq = true ∨ s.regs.seq.isWait = true) :
    step (placeWord (.bus t) s) = exec (decodeBus t) { s with rsp := none } := by
  rw [step, clockEdge_cons _ _ (transactionCycle t) s.env rfl, exec_bus _ _ (decodeBus_isBus t)]
  rw [if_neg (c := (transactionCycle t).rst = true) Bool.false_ne_true, eventHs_transactionCycle]
  by_cases hq : s.regs.seq = .idle
  · exact congrArg _ (if_pos hq)
  · rw [busRegs_busy _ _ hq]
    exact congrArg _ ((if_neg hq).trans (eventEffect_hold _ _ (hused.resolve_left hq)))

theorem phase_isSome_of_isWait (q : SeqState) (h : q.isWait = true) : q.phase.isSome = true := by
  rcases (isWait_iff q).mp h with rfl | rfl <;> rfl

/-- For an acceptance no block is in flight (R153(a)). -/
theorem hpForEvent_of_isReq {e : SeqWord} (hhs : seqHs e = true) (hq : (SeqState.ofCode (seqS e)).isReq = true)
    (r : Regs) (hp : Option Block) : hpForEvent e r hp = none := by
  simp [hpForEvent, hhs, hq]

/-- For a response a block is in flight (R153(c)). -/
theorem hpForEvent_of_isWait {e : SeqWord} (hhs : seqHs e = true) (hq : (SeqState.ofCode (seqS e)).isWait = true)
    (r : Regs) (hp : Option Block) : (hpForEvent e r hp).isSome = true := by
  have hreq : (SeqState.ofCode (seqS e)).isReq = false := by
    rcases (isWait_iff _).mp hq with h | h <;> rw [h] <;> rfl
  cases hp <;> simp [hpForEvent, hhs, hq, hreq, phase_isSome_of_isWait _ hq]

/-- The placed pins and block in flight give back the event word's HS in each SEQ state (R74, R153). -/
theorem eventHs_placeWord (e : SeqWord) (s : State) :
    eventHs (eventCycle e) (placeWord (.seq e) s) = seqHs e := by
  simp only [eventHs, acceptsBlock, responds, placeWord, eventCycle]
  cases hhs : seqHs e
  · simp
  · by_cases hreq : (SeqState.ofCode (seqS e)).isReq = true
    · simp [hreq, hpForEvent_of_isReq hhs hreq]
    · by_cases hwait : (SeqState.ofCode (seqS e)).isWait = true
      · simp [hreq, hwait, hpForEvent_of_isWait hhs hwait]
      · simp [hreq, hwait]

/-- HASH_CAN_FAIL is at its default, so that HE is the pin (R8, R154). -/
theorem eventHe_placeWord (e : SeqWord) (s : State) :
    eventHe Config.hashCanFail (eventCycle e) (placeWord (.seq e) s) = seqHe e := by
  simp [eventHe, responseErr, Config.hashCanFail, eventCycle]

/-- A placed event word is the one that the next step forms. -/
theorem step_placeWord_seq (e : SeqWord) (s : State) :
    step (placeWord (.seq e) s) = exec (decodeSeq e)
      { s with
        regs := { s.regs with seq := SeqState.ofCode (seqS e) }
        hp := hpForEvent e s.regs s.hp
        rsp := none } := by
  have henv : (placeWord (.seq e) s).env = eventCycle e :: s.env := rfl
  have hcode : (placeWord (.seq e) s).regs.seq.code = seqS e := code_ofCode (seqS e)
  rw [step_of_noTransaction henv rfl rfl, eventHs_placeWord, eventHe_placeWord, hcode, packSeq_fields]
  rfl

/-- Settles O6, by the placing of each format. -/
theorem stepRunsThePlacedTableWord : Obligations.StepRunsThePlacedTableWord := by
  intro s
  refine ⟨fun t hused => ?_, fun e => ?_⟩
  · rw [withFetchWord_bus, step_placeWord_bus]
    rw [isReq_iff, isWait_iff]
    tauto
  · rw [withFetchWord_seq, step_placeWord_seq]

end Sys2Proof.Proofs
end

section
/-! PROOFS. The BUS operations (spec/40_bus_ops.md): which words are each of them, what it answers and what it writes. -/

namespace Sys2Proof.Proofs

open Sys2Proof.Machine Sys2Proof.Laws

/-! ### The words of a window -/

@[simp] theorem keyOffset_toNat (i : Index) : (keyOffset i).toNat = 0x20 + 4 * i.val := by
  revert i; decide

@[simp] theorem msgOffset_toNat (i : Index) : (msgOffset i).toNat = 0x40 + 4 * i.val := by
  revert i; decide

@[simp] theorem resultOffset_toNat (i : Index) : (resultOffset i).toNat = 0x60 + 4 * i.val := by
  revert i; decide

theorem decodeBus_of_keyWord {t : BusWord} {i : Index} (h : (busAddr t).toNat = 0x20 + 4 * i.val) :
    decodeBus t = if busWr t then .wrKey i (busData t) else .rdKey i := by
  have haddr : busAddr t = keyOffset i := BitVec.eq_of_toNat_eq (by simp [h])
  rw [decodeBus, haddr, decodeFields_key]

theorem decodeBus_of_msgWord {t : BusWord} {i : Index} (h : (busAddr t).toNat = 0x40 + 4 * i.val) :
    decodeBus t = if busWr t then .wrMsg i (busData t) else .rdMsg i := by
  have haddr : busAddr t = msgOffset i := BitVec.eq_of_toNat_eq (by simp [h])
  rw [decodeBus, haddr, decodeFields_msg]

theorem decodeBus_of_resultWord {t : BusWord} {i : Index} (h : (busAddr t).toNat = 0x60 + 4 * i.val) :
    decodeBus t = if busWr t then .wrResult i (busData t) else .rdResult i := by
  have haddr : busAddr t = resultOffset i := BitVec.eq_of_toNat_eq (by simp [h])
  rw [decodeBus, haddr, decodeFields_result]

/-! ### Offsets without a register -/

/-- An offset outside every register is of one of the five rows of BUS_RESERVED and BUS_MISALIGNED (R76). -/
theorem row_of_offset_without_register (a : Offset)
    (h : a.extractLsb' 0 2 ≠ 0b00#2 ∨ a = 0x14#8 ∨ a = 0x18#8 ∨ a = 0x1C#8 ∨ 0x80 ≤ a.toNat) :
    isMisalignedA a = true ∨ isMisalignedB a = true ∨ a = 0x14#8 ∨ isReservedB a = true ∨ isReservedC a = true := by
  revert a; decide

/-- Settles O16: the offset is of one of the five rows, and each row's operation is refused by `exec_bus`. -/
theorem reservedAndMisalignedAccessesAreBusErrors : Obligations.ReservedAndMisalignedAccessesAreBusErrors := by
  intro s wr a v
  refine ⟨exec_bus _ s rfl, exec_bus _ s rfl, exec_bus _ s rfl, exec_bus _ s rfl, exec_bus _ s rfl, fun t h => ?_⟩
  rw [decodeBus]
  rcases row_of_offset_without_register _ h with h | h | h | h | h
  · rw [decodeFields_of_misalignedA h]
    exact exec_bus _ s rfl
  · rw [decodeFields_of_misalignedB h]
    exact exec_bus _ s rfl
  · rw [h, decodeFields_reservedA]
    exact exec_bus _ s rfl
  · rw [decodeFields_of_reservedB h]
    exact exec_bus _ s rfl
  · rw [decodeFields_of_reservedC h]
    exact exec_bus _ s rfl

/-! ### Writes of the word files -/

theorem writeWhenIdle_of_idle (addr : Offset) (f : Regs → Regs) {s : State} (hq : s.regs.seq = .idle) :
    writeWhenIdle addr f s = respond 0#32 { s with regs := f s.regs } :=
  if_neg (by simp [Regs.busy, hq])

theorem writeWhenIdle_of_busy (addr : Offset) (f : Regs → Regs) {s : State} (hq : s.regs.seq ≠ .idle) :
    writeWhenIdle addr f s = busError addr s :=
  if_pos ((busy_iff _).mpr hq)

/-- Word j of a word file after `X[i] <- v`. -/
theorem words8_set_getElem (x : Words8) (i j : Index) (v : Word) :
    (x.set i.val v)[j] = if j = i then v else x[j] := by
  simp only [Fin.getElem_fin, Vector.getElem_set, Fin.val_inj, eq_comm (a := i)]

/-- `mask_set_getLsbD`, by whether the bit is the one set. -/
theorem mask_set_getLsbD_ite (m : BitVec 8) (i j : Index) :
    (m ||| (1#8 <<< i.val)).getLsbD j.val = if j = i then true else m.getLsbD j.val := by
  rw [mask_set_getLsbD]
  split <;> simp [*]

/-- Settles O17, by the two cases of `writeWhenIdle`. -/
theorem writeKeyStoresWhenIdleAndIsRefusedWhenBusy : Obligations.WriteKeyStoresWhenIdleAndIsRefusedWhenBusy := by
  intro s i v
  refine ⟨fun t hwr haddr hdata => by simp [decodeBus_of_keyWord haddr, hwr, hdata], fun hq => ?_, fun hq => ?_⟩
  · exact ⟨_, congrArg Host.Outcome.next (writeWhenIdle_of_idle _ (writeKey i v) hq),
      fun j => words8_set_getElem _ i j v, fun j => mask_set_getLsbD_ite _ i j, rfl⟩
  · exact congrArg Host.Outcome.next (writeWhenIdle_of_busy _ (writeKey i v) hq)

/-- Settles O18, by the two cases of `writeWhenIdle`. -/
theorem writeMessageStoresWhenIdleAndIsRefusedWhenBusy :
    Obligations.WriteMessageStoresWhenIdleAndIsRefusedWhenBusy := by
  intro s i v
  refine ⟨fun t hwr haddr hdata => by simp [decodeBus_of_msgWord haddr, hwr, hdata], fun hq => ?_, fun hq => ?_⟩
  · exact ⟨_, congrArg Host.Outcome.next (writeWhenIdle_of_idle _ (writeMsg i v) hq),
      fun j => words8_set_getElem _ i j v, fun j => mask_set_getLsbD_ite _ i j, rfl⟩
  · exact congrArg Host.Outcome.next (writeWhenIdle_of_busy _ (writeMsg i v) hq)

/-! ### The response of a cycle -/

/-- A step without reset drives the response that the registers at its start give. -/
theorem step_rsp {s u : State} {c : ClockCycle} {rest : List ClockCycle} (henv : s.env = c :: rest)
    (hrst : c.rst = false) (h : step s = .next u) : u.rsp = cycleRsp c s.regs := by
  rw [step, clockEdge_cons _ s c rest henv, hrst] at h
  cases h
  by_cases hq : s.regs.seq = .idle <;> simp [hq]

/-- Settles O24: the event of the cycle leaves the response as the transaction made it. -/
theorem responsesShowTheStateAtTheStartOfTheCycle : Obligations.ResponsesShowTheStateAtTheStartOfTheCycle := by
  intro s u c rest t henv hrst hreq h
  refine ⟨_, exec_bus _ s (decodeBus_isBus t), ?_⟩
  rw [step_rsp henv hrst h, cycleRsp, hreq, Option.map_some]

/-! ### Reads -/

/-- Settles O11: each answer is the constant that `busRsp` gives for the operation. -/
theorem readsOfCtrlPadsAndKeyAnswerConstants : Obligations.ReadsOfCtrlPadsAndKeyAnswerConstants := by
  intro s i
  exact ⟨fun t hwr haddr => by simp [decodeBus, hwr, haddr], exec_bus _ s rfl,
    fun t hwr haddr => by simp [decodeBus, hwr, haddr], exec_bus _ s rfl,
    fun t hwr haddr => by simp [decodeBus, hwr, haddr], exec_bus _ s rfl,
    fun t hwr haddr => by simp [decodeBus_of_keyWord haddr, hwr], exec_bus _ s rfl⟩

/-- STATUS bit by bit (R38). -/
theorem statusWord_getLsbD (x : Regs) (k : Nat) :
    x.statusWord.getLsbD k =
      if k = 0 then x.busy else if k = 1 then x.done else if k = 2 then x.err else if k = 3 then false
      else if k < 7 then x.seq.code.getLsbD (k - 4) else if k = 7 then false else x.errCode.getLsbD (k - 8) := by
  simp only [Regs.statusWord, BitVec.getLsbD_setWidth, BitVec.getLsbD_append, BitVec.getLsbD_ofBool]
  by_cases h : k < 8
  · interval_cases k <;> simp
  · obtain ⟨j, rfl⟩ := Nat.exists_eq_add_of_le' (not_lt.mp h)
    cases hj : x.errCode.getLsbD j with
    | false => simp [hj]
    | true =>
      have hlt : j < 4 := BitVec.lt_of_getLsbD hj
      simp [hj, show j + 8 < 32 by omega, show ¬j + 4 < 3 by omega, show ¬j + 8 < 7 by omega]

theorem statusWord_seq (x : Regs) : x.statusWord.extractLsb' 4 3 = x.seq.code := by
  apply BitVec.eq_of_getLsbD_eq
  intro k hk
  simp [statusWord_getLsbD, hk, Nat.add_comm 4, show k + 4 < 7 by omega]

theorem statusWord_errCode (x : Regs) : x.statusWord.extractLsb' 8 4 = x.errCode := by
  apply BitVec.eq_of_getLsbD_eq
  intro k hk
  simp [statusWord_getLsbD, hk, Nat.add_comm 8]

theorem statusWord_zeros (x : Regs) : x.statusWord.extractLsb' 12 20 = 0#20 := by
  apply BitVec.eq_of_getLsbD_eq
  intro k hk
  simp [statusWord_getLsbD, Nat.add_comm 12]

/-- Settles O12: the answer is `statusWord`, whose fields the lemmas above read. -/
theorem readStatusPacksTheFlagsAndTheSequencer : Obligations.ReadStatusPacksTheFlagsAndTheSequencer := by
  intro s
  refine ⟨fun t hwr haddr => by simp [decodeBus, hwr, haddr], s.regs.statusWord, exec_bus _ s rfl, ?_⟩
  rw [statusWord_seq, statusWord_errCode, statusWord_zeros]
  refine ⟨by rw [statusWord_getLsbD, ← busy_iff]; rfl, statusWord_getLsbD _ 1, statusWord_getLsbD _ 2,
    statusWord_getLsbD _ 3, statusWord_getLsbD _ 7, rfl, rfl, ?_⟩
  refine ⟨?_, ?_, ?_, ?_, ?_⟩ <;> intro hq <;> rw [hq] <;> rfl

/-- Settles O14: the answers are MSG[i] and, through the result mux, R[i]. -/
theorem readsOfMessageAndResult : Obligations.ReadsOfMessageAndResult := by
  intro s i
  have hresult := exec_bus (.rdResult i) s rfl
  refine ⟨fun t hwr haddr => by simp [decodeBus_of_msgWord haddr, hwr], exec_bus _ s rfl,
    fun t hwr haddr => by simp [decodeBus_of_resultWord haddr, hwr], fun hdone => ?_, fun hdone => ?_⟩
  all_goals simp [hresult, busRegs, busRsp, resultMux, hdone]

/-! ### Refused writes and commands -/

/-- Settles O15: each of the five operations is refused by `exec_bus`. -/
theorem writesToReadOnlyRegistersAreBusErrors : Obligations.WritesToReadOnlyRegistersAreBusErrors := by
  intro s i v
  exact ⟨fun t hwr haddr hdata => by simp [decodeBus, hwr, haddr, hdata], exec_bus _ s rfl,
    fun t hwr haddr hdata => by simp [decodeBus, hwr, haddr, hdata], exec_bus _ s rfl,
    fun t hwr haddr hdata => by simp [decodeBus, hwr, haddr, hdata], exec_bus _ s rfl,
    fun t hwr haddr hdata => by simp [decodeBus, hwr, haddr, hdata], exec_bus _ s rfl,
    fun t hwr haddr hdata => by simp [decodeBus_of_resultWord haddr, hwr, hdata], exec_bus _ s rfl⟩

/-- CLEAR leaves an idle CORE's registers at their reset values (R103). -/
theorem clearAction_of_idle {x : Regs} (hq : x.seq = .idle) : clearAction x = Regs.reset := by
  simp [clearAction, leaveError, Regs.reset, hq]

/-- START alone, written to an idle CORE, runs START_ACTION (R101). -/
theorem exec_wrCtrl_start {s : State} {v : Word} (hq : s.regs.seq = .idle) (hclear : clearBit v = false)
    (hstart : startBit v = true) :
    exec (.wrCtrl v) s = .next { s with regs := startAction s.regs, rsp := some ⟨0#32, false⟩ } := by
  have hidle : s.regs.busy = false := (not_busy_iff _).mpr hq
  simp [exec_bus (.wrCtrl v) s rfl, busRegs, busRsp, hidle, hclear, hstart]

/-- Settles O19, by BUSY and the two command bits. -/
theorem writeCtrlRunsItsCommandOnlyWhenIdle : Obligations.WriteCtrlRunsItsCommandOnlyWhenIdle := by
  intro s v
  have hexec := exec_bus (.wrCtrl v) s rfl
  refine ⟨fun t hwr haddr hdata => by simp [decodeBus, hwr, haddr, hdata], fun hq hcmd => ?_,
    fun hclear hstart => ?_, fun hq hclear => ?_, exec_wrCtrl_start⟩
  · have hbusy : s.regs.busy = true := (busy_iff _).mpr hq
    have hcommand : isCommand v = true := by simpa [isCommand, clearBit, startBit] using hcmd
    simp [hexec, busRegs, busRsp, hbusy, hcommand]
  · simp only [hexec, busRegs, busRsp, isCommand, clearBit, startBit, hclear, hstart, Bool.or_false, Bool.and_false,
      Bool.false_eq_true, if_false, ite_self]
  · have hidle : s.regs.busy = false := (not_busy_iff _).mpr hq
    simp [hexec, busRegs, busRsp, hidle, clearBit, hclear, clearAction_of_idle hq, State.reset]

/-- Settles O20, by the three cases of START_ACTION. -/
theorem startBeginsAComputationOrRecordsTheMissingInput :
    Obligations.StartBeginsAComputationOrRecordsTheMissingInput := by
  intro s v hq hclear hstart
  rw [exec_wrCtrl_start hq hclear hstart]
  rcases startAction_cases s.regs with ⟨hkwm, h⟩ | ⟨hkwm, hmwm, h⟩ | ⟨hkwm, hmwm, h⟩ <;> rw [h]
  · exact ⟨fun _ => rfl, fun hk => absurd hk hkwm, fun hk => absurd hk hkwm⟩
  · exact ⟨fun hk => absurd hkwm hk, fun _ _ => rfl, fun _ hm => absurd hm hmwm⟩
  · exact ⟨fun hk => absurd hkwm hk, fun _ hm => absurd hmwm hm, fun _ _ => rfl⟩

end Sys2Proof.Proofs
end

section
/-! PROOFS. The XOR unit, the block on the flat buses, the request port, and the stages of a computation
(spec/41_pad_xor.md; spec/42_sequencer.md R151 to R153, R167, R168). -/

namespace Sys2Proof.Proofs

open Sys2Proof.Machine Sys2Proof.Laws

/-! ### The key blocks -/

theorem innerKeyBlock_getElem (key : Words8) (i : Index) : (innerKeyBlock key)[i] = key[i] ^^^ 0x36363636#32 :=
  padXor_getElem _ key i.val i.isLt

theorem outerKeyBlock_getElem (key : Words8) (i : Index) : (outerKeyBlock key)[i] = key[i] ^^^ 0x5c5c5c5c#32 :=
  padXor_getElem _ key i.val i.isLt

/-- Law (a): the pads differ by 0x6a6a6a6a, and so do the key blocks (R144). -/
theorem outerKeyBlock_eq_innerKeyBlock_xor (key : Words8) (i : Index) :
    (outerKeyBlock key)[i] = (innerKeyBlock key)[i] ^^^ 0x6a6a6a6a#32 := by
  rw [innerKeyBlock_getElem, outerKeyBlock_getElem, BitVec.xor_assoc]
  rfl

/-- The bits of the pad difference. -/
theorem padDifference_getLsbD : ∀ b : Fin 32, (0x6a6a6a6a#32).getLsbD b.val = true ↔
    (b.val % 8 = 1 ∨ b.val % 8 = 3 ∨ b.val % 8 = 5 ∨ b.val % 8 = 6) := by
  decide

/-- Law (e): the key blocks differ exactly in the bits of the pad difference (R144). -/
theorem keyBlocks_getLsbD_ne_iff (key : Words8) (i : Index) (b : Fin 32) :
    (innerKeyBlock key)[i].getLsbD b.val ≠ (outerKeyBlock key)[i].getLsbD b.val ↔
      (b.val % 8 = 1 ∨ b.val % 8 = 3 ∨ b.val % 8 = 5 ∨ b.val % 8 = 6) := by
  rw [outerKeyBlock_eq_innerKeyBlock_xor, BitVec.getLsbD_xor, ← padDifference_getLsbD]
  generalize (innerKeyBlock key)[i].getLsbD b.val = a
  cases a <;> simp

/-- Settles O25: the blocks are KEY XOR the pads, and the laws follow from the difference of the pads. -/
theorem keyBlocksAreTheKeyXoredWithThePads : Obligations.KeyBlocksAreTheKeyXoredWithThePads := by
  intro key other i
  have hbits := keyBlocks_getLsbD_ne_iff key i
  refine ⟨innerKeyBlock_getElem key i, outerKeyBlock_getElem key i, outerKeyBlock_eq_innerKeyBlock_xor key i,
    fun h => ?_, ?_, fun h => ?_, hbits⟩
  · exact (hbits 1).mpr (.inl rfl) (by rw [h])
  · rw [innerKeyBlock_getElem, BitVec.xor_assoc, BitVec.xor_self, BitVec.xor_zero]
  · simp only [innerKeyBlock_getElem, outerKeyBlock_getElem, h, and_self]

/-! ### The flat buses -/

/-- Bit k of word j stands on bit 32j+k of the words side by side. -/
theorem packWords_getLsbD (ws : List Word) (j k : Nat) (hj : j < ws.length) (hk : k < 32) :
    (packWords ws).getLsbD (32 * j + k) = ws[j].getLsbD k := by
  induction ws generalizing j with
  | nil => simp at hj
  | cons w ws ih =>
    rw [packWords, BitVec.getLsbD_cast, BitVec.getLsbD_append]
    cases j with
    | zero => simp [hk]
    | succ j =>
      rw [if_neg (by omega), show 32 * (j + 1) + k - 32 = 32 * j + k by omega]
      exact ih j (by simpa using hj)

/-- Word j stands on bits [32j+31:32j] of a bus as wide as the words (R146, R150). -/
theorem packWords_setWidth_extractLsb' {n : Nat} (ws : List Word) (j : Nat) (hj : j < ws.length)
    (hn : n = 32 * ws.length) : ((packWords ws).setWidth n).extractLsb' (32 * j) 32 = ws[j] := by
  apply BitVec.eq_of_getLsbD_eq
  intro k hk
  have hlt : 32 * j + k < n := by omega
  simp [hk, hlt, packWords_getLsbD ws j k hj hk]

/-- Settles O26: both buses are as wide as their words side by side. -/
theorem wordsStandInOrderOnTheFlatBuses : Obligations.WordsStandInOrderOnTheFlatBuses := by
  refine ⟨fun b j => ?_, fun d j => ?_⟩
  · exact packWords_setWidth_extractLsb' b.toList j.val (by simp) (by simp)
  · have h : (packDigest d).extractLsb' (32 * j.val) 32 = d[j] :=
      packWords_setWidth_extractLsb' d.toList j.val (by simp) (by simp)
    exact ⟨h, h⟩

/-! ### The request port -/

theorem hreqBlock_of_innerReq {x : Regs} (hq : x.seq = .innerReq) : hreqBlock x = some (assembleBlock .inner x) := by
  simp [hreqBlock, hreqValid, hq, SeqState.isReq, SeqState.phase]

theorem hreqBlock_of_outerReq {x : Regs} (hq : x.seq = .outerReq) : hreqBlock x = some (assembleBlock .outer x) := by
  simp [hreqBlock, hreqValid, hq, SeqState.isReq, SeqState.phase]

/-- In a REQ state HS is an acceptance: the primitive is ready and holds no block (R153(a)). -/
theorem eventHs_of_isReq (c : ClockCycle) {s : State} (hq : s.regs.seq.isReq = true) :
    eventHs c s = (c.hreqReady && s.hp.isNone) := if_pos hq

/-- An event in a REQ state with HS = 1 puts the offered block in flight and ends the offer (R157, R162). -/
theorem eventEffect_issue (he : Bool) {s : State} (hq : hreqValid s.regs = true) :
    (eventEffect true he s).hp = hreqBlock s.regs ∧ hreqValid (eventEffect true he s).regs = false := by
  rcases (isReq_iff _).mp hq with hq | hq
  · simp [eventEffect, hq, hreqBlock_of_innerReq, hreqValid, SeqState.isReq]
  · simp [eventEffect, hq, hreqBlock_of_outerReq, hreqValid, SeqState.isReq]

/-- The REQ and WAIT states are busy. -/
theorem ne_idle_of_isReq_or_isWait {q : SeqState} (h : q.isReq = true ∨ q.isWait = true) : q ≠ .idle := by
  rintro rfl
  simp [SeqState.isReq, SeqState.isWait] at h

/-- The form of `step_cases` for a busy state at an edge without reset: the event alone. -/
theorem step_of_busy {s u : State} (hq : s.regs.seq ≠ .idle) (hrst : (takeCycle s).1.rst = false)
    (h : step s = .next u) : ∃ x : State, x.regs = s.regs ∧ x.hp = s.hp ∧
      u = eventEffect (eventHs (takeCycle s).1 s) (eventHe Config.hashCanFail (takeCycle s).1 s) x := by
  rcases step_cases h with ⟨hr, -⟩ | ⟨-, hidle, -⟩ | ⟨-, -, hx⟩
  · simp [hr] at hrst
  · exact absurd hidle hq
  · exact hx

/-- In a REQ state an edge without acceptance changes neither CORE nor the block in flight (R156, R161). -/
theorem step_of_noAcceptance {s u : State} (hq : hreqValid s.regs = true) (hrst : (takeCycle s).1.rst = false)
    (hacc : (takeCycle s).1.hreqReady = false ∨ s.hp ≠ none) (h : step s = .next u) :
    u.regs = s.regs ∧ u.hp = s.hp := by
  obtain ⟨x, hregs, hhp, rfl⟩ := step_of_busy (ne_idle_of_isReq_or_isWait (.inl hq)) hrst h
  have hs : eventHs (takeCycle s).1 s = false := by
    rw [eventHs_of_isReq _ hq]
    rcases hacc with hc | hc <;> simp [hc, Option.isSome_iff_ne_none]
  rw [hs, eventEffect_hold _ x (.inl (hregs ▸ hq))]
  exact ⟨hregs, hhp⟩

/-- In a REQ state an edge at which the primitive accepts puts the offered block in flight and ends the offer (R153). -/
theorem step_of_acceptance {s u : State} (hq : hreqValid s.regs = true) (hrst : (takeCycle s).1.rst = false)
    (hready : (takeCycle s).1.hreqReady = true) (hnone : s.hp = none) (h : step s = .next u) :
    u.hp = hreqBlock s.regs ∧ hreqValid u.regs = false := by
  obtain ⟨x, hregs, -, rfl⟩ := step_of_busy (ne_idle_of_isReq_or_isWait (.inl hq)) hrst h
  have hs : eventHs (takeCycle s).1 s = true := by simp [eventHs_of_isReq _ hq, hready, hnone]
  rw [hs, ← hregs]
  exact eventEffect_issue _ (hregs ▸ hq)

/-- Settles O27: the port by the states of SEQ, and the edge by whether the primitive accepts. -/
theorem hashRequestPortOffersTheBlockUntilAccepted : Obligations.HashRequestPortOffersTheBlockUntilAccepted := by
  refine ⟨fun s => ⟨isReq_iff _, fun h => ?_, fun hq => ?_, fun hq => ?_⟩, fun s c rest henv hrst hq => ?_⟩
  · simp [hreqBlock, h]
  · rw [hreqBlock_of_innerReq hq, assembleBlock_inner]
  · rw [hreqBlock_of_outerReq hq, assembleBlock_outer]
  · obtain ⟨u, hu⟩ := clockEdge_answers Config.hashCanFail s
    have hc : (takeCycle s).1 = c := by simp [takeCycle, henv]
    rw [← hc] at hrst ⊢
    refine ⟨fun hnone hready => ⟨u, hu, step_of_acceptance hq hrst hready hnone hu⟩, fun hacc => ?_⟩
    obtain ⟨hregs, hhp⟩ := step_of_noAcceptance hq hrst hacc hu
    exact ⟨u, hu, by rw [hregs], by rw [hregs], hhp⟩

/-- Settles O28: no event of a busy state writes KEY or MSG, only one in INNER_WAIT writes D, and these with SEQ make
the offered block. -/
theorem offeredBlockAndInputsAreStableWhileBusy : Obligations.OfferedBlockAndInputsAreStableWhileBusy := by
  intro s u hq hrst h
  obtain ⟨hkey, hmsg, hd⟩ : u.regs.key = s.regs.key ∧ u.regs.msg = s.regs.msg ∧
      (s.regs.seq ≠ .innerWait → u.regs.d = s.regs.d) := by
    obtain ⟨x, hregs, -, rfl⟩ := step_of_busy hq hrst h
    obtain ⟨hkey, hmsg, -, -, hd⟩ := eventEffect_frame (eventHs (takeCycle s).1 s)
      (eventHe Config.hashCanFail (takeCycle s).1 s) x
    exact hregs ▸ ⟨hkey, hmsg, hd⟩
  refine ⟨hkey, hmsg, hd, fun hreq hready => ?_, fun hreq hseq => ?_⟩
  · obtain ⟨hregs, -⟩ := step_of_noAcceptance hreq hrst (.inl hready) h
    exact ⟨by rw [hregs], by rw [hregs]⟩
  · have hwait : s.regs.seq ≠ .innerWait := fun hw => by simp [hreqValid, hw, SeqState.isReq] at hreq
    exact hreqBlock_congr _ _ hseq hkey hmsg (hd hwait)

/-! ### The stages of a computation -/

/-- The computation ends in success: SEQ leaves OUTER_WAIT and R is the MAC (R164, R168). -/
def EndsWithMac (key msg : Words8) (s u : State) : Prop :=
  s.regs.seq = .outerWait ∧ u.regs.seq = .idle ∧ u.regs.done = true ∧ u.regs.err = false ∧ u.regs.r = macOf key msg

/-- The computation ends in a hash failure in a WAIT state (R160, R165). -/
def EndsInFailure (s u : State) : Prop :=
  (s.regs.seq = .innerWait ∨ s.regs.seq = .outerWait) ∧ u.regs.seq = .idle ∧ u.regs.done = false ∧
    u.regs.err = true ∧ u.regs.errCode = 0x3#4

/-- `Progress` speaks of CORE and of the block in flight only. -/
theorem progress_congr {key msg : Words8} {s t : State} (hregs : t.regs = s.regs) (hhp : t.hp = s.hp)
    (h : Progress key msg s) : Progress key msg t := by
  rw [Progress, hregs, hhp]
  exact h

/-- The stage a computation is in is a REQ or a WAIT state. -/
theorem isReq_or_isWait_of_progress {key msg : Words8} {s : State} (h : Progress key msg s) :
    s.regs.seq.isReq = true ∨ s.regs.seq.isWait = true := by
  obtain ⟨-, -, -, -, ⟨hq, -⟩ | ⟨hq, -⟩ | ⟨hq, -⟩ | ⟨hq, -⟩⟩ := h <;> simp [hq, SeqState.isReq, SeqState.isWait]

/-- From a REQ state an acceptance goes on to the WAIT state of the phase, with the phase's block in flight. -/
theorem progress_of_issue {key msg : Words8} {s : State} (he : Bool) (h : Progress key msg s)
    (hq : s.regs.seq.isReq = true) :
    Progress key msg (eventEffect true he s) ∧ SameOrNextStage s (eventEffect true he s) := by
  obtain ⟨hkey, hmsg, hdone, herr, ⟨hseq, -⟩ | ⟨hseq, -⟩ | ⟨hseq, -, hd⟩ | ⟨hseq, -⟩⟩ := h
  · simp [eventEffect, hseq, Progress, SameOrNextStage, hkey, hmsg, hdone, herr, assembleBlock_inner]
  · simp [hseq, SeqState.isReq] at hq
  · simp [eventEffect, hseq, Progress, SameOrNextStage, hkey, hmsg, hdone, herr, hd, assembleBlock_outer]
  · simp [hseq, SeqState.isReq] at hq

/-- From a WAIT state a response without an error goes on to OUTER_REQ with the inner digest, or ends with the MAC. -/
theorem progress_of_capture {key msg : Words8} {s : State} (h : Progress key msg s)
    (hq : s.regs.seq.isWait = true) :
    (Progress key msg (eventEffect true false s) ∧ SameOrNextStage s (eventEffect true false s)) ∨
      EndsWithMac key msg s (eventEffect true false s) := by
  obtain ⟨hkey, hmsg, hdone, herr, ⟨hseq, -⟩ | ⟨hseq, hhp⟩ | ⟨hseq, -⟩ | ⟨hseq, hhp, -⟩⟩ := h
  · simp [hseq, SeqState.isWait] at hq
  · have hdigest : hrspDigest s = innerDigestOf key msg := by rw [hrspDigest, hhp]; rfl
    exact .inl (by simp [eventEffect, hseq, Progress, SameOrNextStage, hkey, hmsg, hdone, herr, hdigest])
  · simp [hseq, SeqState.isWait] at hq
  · have hdigest : hrspDigest s = macOf key msg := by rw [hrspDigest, hhp]; rfl
    exact .inr (by simp [eventEffect, hseq, EndsWithMac, herr, hdigest])

/-- From a WAIT state a failing response ends the computation in a failure. -/
theorem endsInFailure_of_failure {key msg : Words8} {s : State} (h : Progress key msg s)
    (hq : s.regs.seq.isWait = true) : EndsInFailure s (eventEffect true true s) := by
  obtain ⟨-, -, hdone, -⟩ := h
  rw [eventEffect_of_failure s hq]
  exact ⟨(isWait_iff _).mp hq, rfl, hdone, rfl, rfl⟩

/-- What an event makes of a computation: with HS = 0 the stage stays; else an issue, a capture or a failure. -/
theorem progress_eventEffect {key msg : Words8} {s : State} (hs he : Bool) (h : Progress key msg s) :
    (Progress key msg (eventEffect hs he s) ∧ SameOrNextStage s (eventEffect hs he s)) ∨
      EndsWithMac key msg s (eventEffect hs he s) ∨ EndsInFailure s (eventEffect hs he s) := by
  cases hs
  case false =>
    rw [eventEffect_hold he s (isReq_or_isWait_of_progress h)]
    exact .inl ⟨h, .inl rfl⟩
  case true =>
    rcases isReq_or_isWait_of_progress h with hq | hq
    · exact .inl (progress_of_issue he h hq)
    · cases he
      case false => exact or_assoc.mp (.inl (progress_of_capture h hq))
      case true => exact .inr (.inr (endsInFailure_of_failure h hq))

/-- Settles O44: a computation is busy, so that the edge without reset is its event. -/
theorem eachCycleKeepsAdvancesOrEndsAComputation : Obligations.EachCycleKeepsAdvancesOrEndsAComputation := by
  intro key msg s u h hrst hstep
  have hbusy : s.regs.seq ≠ .idle := ne_idle_of_isReq_or_isWait (isReq_or_isWait_of_progress h)
  obtain ⟨x, hregs, hhp, rfl⟩ := step_of_busy hbusy hrst hstep
  have hx := progress_eventEffect (eventHs (takeCycle s).1 s) (eventHe Config.hashCanFail (takeCycle s).1 s)
    (progress_congr hregs hhp h)
  simpa only [EndsWithMac, EndsInFailure, SameOrNextStage, hregs] using hx

end Sys2Proof.Proofs
end

section
/-! PROOFS. The sequencer's transitions (spec/42_sequencer.md R154 to R166, R170, R171): which event words each of them
is, what it does in its own state of SEQ and in any other, and the pins that each state ignores. -/

namespace Sys2Proof.Proofs

open Sys2Proof.Machine Sys2Proof.Laws

/-! ### The operations of the event words -/

theorem decodeSeq_of_state {e : SeqWord} {c : BitVec 3} (hS : seqS e = c) :
    decodeSeq e = decodeEvent c (seqHs e) (seqHe e) := by
  rw [decodeSeq, hS]

theorem decodeSeq_of_hs {e : SeqWord} {c : BitVec 3} {hs : Bool} (hS : seqS e = c) (hHs : seqHs e = hs) :
    decodeSeq e = decodeEvent c hs (seqHe e) := by
  rw [decodeSeq, hS, hHs]

theorem decodeSeq_of_fields {e : SeqWord} {c : BitVec 3} {hs he : Bool} (hS : seqS e = c) (hHs : seqHs e = hs)
    (hHe : seqHe e = he) : decodeSeq e = decodeEvent c hs he := by
  rw [decodeSeq, hS, hHs, hHe]

/-- In its own state of SEQ an operation has the effect of the event. -/
theorem exec_decodeEvent {s : State} {q : SeqState} (hq : s.regs.seq = q) (hs he : Bool) :
    exec (decodeEvent q.code hs he) s = .next (eventEffect hs he s) := by
  rw [← hq, ← decodeSeq_packSeq]
  exact exec_event hs he s

/-- In any other state of SEQ an operation changes nothing (R170, log 8). -/
theorem exec_decodeSeq_of_ne {q : SeqState} (hs he : Bool) {s : State} (hq : s.regs.seq ≠ q) :
    exec (decodeSeq (packSeq q.code hs he)) s = .next s := by
  rw [decodeSeq_code]
  cases q <;> cases hs <;> cases he <;> exact congrArg Host.Outcome.next (if_neg hq)

/-- Settles O37: an event word is the one that its own S, HS and HE pack. -/
theorem transitionsAreTakenOnlyInTheirOwnState : Obligations.TransitionsAreTakenOnlyInTheirOwnState := by
  intro e s hq
  have h := exec_decodeSeq_of_ne (seqHs e) (seqHe e) hq
  rwa [code_ofCode, packSeq_fields] at h

/-! ### Holds, issues, captures, failures and recovery -/

/-- Settles O30: with HS = 0 the event of a REQ or WAIT state is a hold, and IDLE has no event. -/
theorem holdTransitionsChangeNothing : Obligations.HoldTransitionsChangeNothing := by
  intro s hs he
  refine ⟨fun e => decodeSeq_of_state, fun hq => ?_, fun e => decodeSeq_of_hs, fun hq => ?_,
    fun e => decodeSeq_of_hs, fun hq => ?_, fun e => decodeSeq_of_hs, fun hq => ?_,
    fun e => decodeSeq_of_hs, fun hq => ?_⟩
  · have h := exec_decodeEvent hq hs he
    rwa [eventEffect, hq] at h
  all_goals
    have hhold := eventEffect_hold he s (by simp [hq, SeqState.isReq, SeqState.isWait])
    exact (exec_decodeEvent hq false he).trans (congrArg _ hhold)

/-- Word by word, a block is the key block of the phase and then the second half (R145, R146). -/
theorem assembleBlock_getElem (p : Phase) (x : Regs) (j : Index) :
    (assembleBlock p x)[j.val] = x.key[j] ^^^ padOf p ∧
    (assembleBlock p x)[8 + j.val]'(Nat.add_lt_add_left j.isLt 8) = (blockMux p x)[j] :=
  ⟨(joinHalves_left _ _ j.val j.isLt).trans (padXor_getElem _ _ j.val j.isLt), joinHalves_right _ _ j.val j.isLt⟩

/-- Settles O31: the block in flight is the one that the phase assembles. -/
theorem issueHandsTheBlockToTheHashPrimitive : Obligations.IssueHandsTheBlockToTheHashPrimitive := by
  intro s he
  refine ⟨fun e => decodeSeq_of_hs, fun hq => ?_, fun e => decodeSeq_of_hs, fun hq => ?_⟩
  · exact ⟨_, assembleBlock .inner s.regs, exec_decodeEvent hq true he, assembleBlock_getElem .inner s.regs,
      by simp [eventEffect, hq]⟩
  · exact ⟨_, assembleBlock .outer s.regs, exec_decodeEvent hq true he, assembleBlock_getElem .outer s.regs,
      by simp [eventEffect, hq]⟩

/-- Settles O32: the digest delivered is HASH_FN of the block in flight. -/
theorem captureStoresTheDigestOfTheBlockInFlight : Obligations.CaptureStoresTheDigestOfTheBlockInFlight := by
  intro s b
  refine ⟨fun e => decodeSeq_of_fields, fun hq hb => ?_, fun e => decodeSeq_of_fields, fun hq hb => ?_⟩
  all_goals
    refine (exec_decodeEvent hq true false).trans ?_
    simp [eventEffect, hq, endResponse, hrspDigest, hb]

/-- Settles O33: the digest is the free value of log 10. -/
theorem captureWithoutABlockStoresSomeDigest : Obligations.CaptureWithoutABlockStoresSomeDigest := by
  intro s hnone
  refine ⟨fun hq => ⟨Config.freeDigest s.draws, s.draws + 1, ?_⟩,
    fun hq => ⟨Config.freeDigest s.draws, s.draws + 1, ?_⟩⟩
  all_goals
    refine (exec_decodeEvent hq true false).trans ?_
    simp [eventEffect, hq, endResponse, hrspDigest, hnone]

/-- Settles O34: both are the failing response of a WAIT state. -/
theorem hashFailureEntersTheErrorState : Obligations.HashFailureEntersTheErrorState := by
  intro s
  refine ⟨fun e => decodeSeq_of_fields, fun hq => ?_, fun e => decodeSeq_of_fields, fun hq => ?_⟩
  all_goals
    have hfailure := eventEffect_of_failure s (by rw [hq]; rfl)
    exact (exec_decodeEvent hq true true).trans (congrArg _ hfailure)

/-- Settles O35: the event of an unused code, whatever HS and HE are. -/
theorem illegalSequencerStatesRecoverToIdle : Obligations.IllegalSequencerStatesRecoverToIdle := by
  intro s hs he
  refine ⟨fun e => decodeSeq_of_state, fun hq => ?_, fun e => decodeSeq_of_state, fun hq => ?_,
    fun e => decodeSeq_of_state, fun hq => ?_⟩
  all_goals
    refine (exec_decodeEvent hq hs he).trans ?_
    simp only [eventEffect, hq]

/-! ### Clock edges -/

/-- The five used states of SEQ: IDLE, the REQ states and the WAIT states (R28). -/
theorem idle_or_isReq_or_isWait_of_used {q : SeqState}
    (h : q = .idle ∨ q = .innerReq ∨ q = .innerWait ∨ q = .outerReq ∨ q = .outerWait) :
    q = .idle ∨ q.isReq = true ∨ q.isWait = true := by
  rw [isReq_iff, isWait_iff]
  tauto

/-- Outside the REQ and WAIT states an event ignores HS (R74). -/
theorem eventEffect_hs_irrelevant (hs hs' he : Bool) {s : State} (hreq : s.regs.seq.isReq = false)
    (hwait : s.regs.seq.isWait = false) : eventEffect hs he s = eventEffect hs' he s := by
  unfold eventEffect
  cases hq : s.regs.seq <;> simp_all [SeqState.isReq, SeqState.isWait]

/-- Outside the WAIT states an event ignores HE (R74). -/
theorem eventEffect_he_irrelevant (hs he he' : Bool) {s : State} (hwait : s.regs.seq.isWait = false) :
    eventEffect hs he s = eventEffect hs he' s := by
  unfold eventEffect
  cases hq : s.regs.seq <;> simp_all [SeqState.isWait]

/-- Cycles that agree but for the hash pins leave the same state when their events have the same effect. -/
theorem step_congr_pins {s : State} {c c' : ClockCycle} {rest : List ClockCycle} (hrst : c'.rst = c.rst)
    (hreq : c'.req = c.req)
    (hevent : ∀ x : State, x.regs = s.regs →
      eventEffect (eventHs c' s) (eventHe Config.hashCanFail c' s) x =
        eventEffect (eventHs c s) (eventHe Config.hashCanFail c s) x) :
    step { s with env := c' :: rest } = step { s with env := c :: rest } := by
  have hregs : cycleRegs c' s.regs = cycleRegs c s.regs := by simp [cycleRegs, hreq]
  have hrsp : cycleRsp c' s.regs = cycleRsp c s.regs := by simp [cycleRsp, hreq]
  have hreset : resetResponse c' = resetResponse c := by simp [resetResponse, hreq]
  have hbusy := hevent { s with env := rest, rsp := cycleRsp c s.regs } rfl
  rw [step, step, clockEdge_cons _ _ c' rest rfl, clockEdge_cons _ _ c rest rfl]
  simp only [resetEdge, hrst, hregs, hrsp, hreset]
  split_ifs
  · rfl
  · rfl
  · exact congrArg Host.Outcome.next hbusy

/-- Settles O29: outside the WAIT states an event ignores HE, and HS is not the response; outside the REQ states HS is
not the acceptance, or is ignored. -/
theorem hashPinsAreIgnoredOutsideTheirStates : Obligations.HashPinsAreIgnoredOutsideTheirStates := by
  intro s c rest x y
  refine ⟨fun hi ho => step_congr_pins rfl rfl fun z hz => ?_, fun hi ho => step_congr_pins rfl rfl fun z hz => ?_⟩
  · have hwait : s.regs.seq.isWait = false := by simp [← Bool.not_eq_true, isWait_iff, hi, ho]
    have hs : eventHs { c with hrspValid := x, hrspErr := y } s = eventHs c s := by
      simp [eventHs, hwait, acceptsBlock]
    rw [hs]
    exact eventEffect_he_irrelevant _ _ _ (by rw [hz, hwait])
  · have hreq : s.regs.seq.isReq = false := by simp [← Bool.not_eq_true, isReq_iff, hi, ho]
    have he : eventHe Config.hashCanFail { c with hreqReady := x } s = eventHe Config.hashCanFail c s := rfl
    rw [he]
    by_cases hwait : s.regs.seq.isWait = true
    · have hs : eventHs { c with hreqReady := x } s = eventHs c s := by simp [eventHs, hreq, hwait, responds]
      rw [hs]
    · exact eventEffect_hs_irrelevant _ _ _ (by rw [hz, hreq]) (by rw [hz, Bool.eq_false_iff.mpr hwait])

/-- Settles O43: an idle CORE's edge is its bus part, and there is no transaction. -/
theorem idleIsQuiescent : Obligations.IdleIsQuiescent := by
  intro s u hq hrst hreq h
  rcases step_cases h with ⟨hr, -⟩ | ⟨-, -, hregs, hhp⟩ | ⟨-, hne, -⟩
  · simp [hrst] at hr
  · exact ⟨by simp [hregs, cycleRegs, hreq], hhp⟩
  · exact absurd hq hne

/-- No transaction records code 3: START records 1 or 2, and CLEAR and an accepted START record 0 (R203). -/
theorem cycleRegs_errCode_eq_three (c : ClockCycle) (x : Regs) (h : (cycleRegs c x).errCode = 3#4) :
    x.errCode = 3#4 := by
  rcases cycleRegs_cases c x with e | ⟨-, t, -, ⟨k, v, -, e⟩ | ⟨k, v, -, e⟩ | ⟨v, -, -, e⟩ | ⟨v, -, -, -, e⟩⟩ <;>
    rw [e] at h
  case inr.inr.inr.inr => rcases startAction_cases x with ⟨-, e⟩ | ⟨-, -, e⟩ | ⟨-, -, e⟩ <;> simp [e] at h
  case inr.inr.inr.inl => simp at h
  all_goals exact h

/-- ERR_CODE after an event: a failing response in a WAIT state records 3, and no other event writes it. -/
theorem eventEffect_errCode (hs he : Bool) (s : State) :
    (eventEffect hs he s).regs.errCode = if s.regs.seq.isWait && hs && he then 3#4 else s.regs.errCode := by
  unfold eventEffect
  cases hq : s.regs.seq <;> cases hs <;> cases he <;> simp [SeqState.isWait]

/-- Settles O42: code 3 is recorded by a failing response only, which HASH_CAN_FAIL = false shuts out. -/
theorem withoutFailingHashNoFailureIsRecorded : Obligations.WithoutFailingHashNoFailureIsRecorded := by
  intro s u h hcode
  rcases clockEdge_cases _ _ _ h with ⟨-, rfl⟩ | ⟨-, -, rfl⟩ | ⟨-, -, rfl⟩
  · simp [resetEdge, Regs.reset] at hcode
  · exact cycleRegs_errCode_eq_three _ _ hcode
  · rw [eventEffect_errCode] at hcode
    split at hcode
    case isTrue hfail =>
      simp only [takeCycle_regs, Bool.and_eq_true] at hfail
      obtain ⟨⟨hwait, -⟩, he⟩ := hfail
      exact absurd (canFail_of_eventHe hwait he) Bool.false_ne_true
    case isFalse => simpa using hcode

/-! ### Atomic moves as clock edges -/

/-- Some clock cycle does to CORE and to the block in flight of `s` what leads to `x`. -/
def SomeCycleDoes (canFail : Bool) (s x : State) : Prop :=
  ∃ c u, clockEdge canFail { s with env := c :: s.env } = .next u ∧ SameCore u x

/-- A busy CORE's cycle does what its event does. -/
theorem someCycleDoes_event {canFail hs he : Bool} {s x : State} (c : ClockCycle) (hrst : c.rst = false)
    (hq : s.regs.seq.isReq = true ∨ s.regs.seq.isWait = true) (hhs : eventHs c s = hs)
    (hhe : eventHe canFail c s = he) (hx : SameCore (eventEffect hs he s) x) : SomeCycleDoes canFail s x := by
  refine ⟨c, _, clockEdge_cons canFail { s with env := c :: s.env } c s.env rfl, ?_⟩
  rw [hrst, if_neg Bool.false_ne_true, if_neg (ne_idle_of_isReq_or_isWait hq)]
  subst hhs hhe
  exact (congrArg (SameCore · x) (eventEffect_withRsp _ _ s (cycleRsp c s.regs))).mpr hx

/-- The transaction of a cycle in which the primitive does nothing is its whole effect. -/
theorem someCycleDoes_transaction (canFail : Bool) (t : BusWord) {s x : State}
    (hused : s.regs.seq = .idle ∨ s.regs.seq.isReq = true ∨ s.regs.seq.isWait = true)
    (h : exec (decodeBus t) s = .next x) : SomeCycleDoes canFail s x := by
  rw [exec_bus _ s (decodeBus_isBus t)] at h
  cases h
  rcases hused with hq | hq
  · refine ⟨transactionCycle t, _, clockEdge_cons canFail _ _ s.env rfl, ?_⟩
    rw [if_pos (c := s.regs.seq = .idle) hq]
    exact ⟨rfl, rfl⟩
  · refine someCycleDoes_event (transactionCycle t) rfl hq (eventHs_transactionCycle t s) rfl ?_
    rw [eventEffect_hold _ _ hq, busRegs_busy _ _ (ne_idle_of_isReq_or_isWait hq)]
    exact ⟨rfl, rfl⟩

/-- An acceptance in a REQ state is some cycle's effect. -/
theorem someCycleDoes_issue {canFail : Bool} {s x : State} (hq : s.regs.seq.isReq = true) (hnone : s.hp = none)
    (hx : ∀ he, SameCore (eventEffect true he s) x) : SomeCycleDoes canFail s x :=
  someCycleDoes_event acceptCycle rfl (.inl hq)
    (by rw [eventHs_of_isReq _ hq, hnone]; rfl) rfl (hx _)

/-- A response in a WAIT state, failing only when HASH_CAN_FAIL, is some cycle's effect. -/
theorem someCycleDoes_response {canFail : Bool} {s x : State} {b : Block} (he : Bool)
    (hcan : he = true → canFail = true) (hq : s.regs.seq.isWait = true) (hb : s.hp = some b)
    (hx : SameCore (eventEffect true he s) x) : SomeCycleDoes canFail s x := by
  refine someCycleDoes_event { respondCycle with hrspErr := he } rfl (.inr hq)
    (eventHs_of_respond _ s rfl (by rw [hb, hq]; rfl) hq) ?_ hx
  cases he
  · simp [eventHe, responseErr, hq]
  · simp [eventHe, responseErr, hq, hcan]

/-- Settles O52: each move by the cycle whose pins ask for it. -/
theorem everyAtomicMoveIsAClockEdge : Obligations.EveryAtomicMoveIsAClockEdge := by
  intro canFail s x hused hmove
  cases hmove with
  | transaction t _ _ h =>
    exact someCycleDoes_transaction canFail t (idle_or_isReq_or_isWait_of_used hused) h
  | reset => exact ⟨{ waitCycle with rst := true }, _, clockEdge_cons canFail _ _ s.env rfl, rfl, rfl⟩
  | issueInner _ hq hnone =>
    exact someCycleDoes_issue (by rw [hq]; rfl) hnone fun _ =>
      by simp [SameCore, eventEffect, hq, assembleBlock_inner]
  | issueOuter _ hq hnone =>
    exact someCycleDoes_issue (by rw [hq]; rfl) hnone fun _ =>
      by simp [SameCore, eventEffect, hq, assembleBlock_outer]
  | respondInner _ b hq hb =>
    exact someCycleDoes_response false (by simp) (by rw [hq]; rfl) hb
      (by simp [SameCore, eventEffect, hq, hrspDigest, hb])
  | respondOuter _ b hq hb =>
    exact someCycleDoes_response false (by simp) (by rw [hq]; rfl) hb
      (by simp [SameCore, eventEffect, hq, hrspDigest, hb])
  | fail _ b hcan hq hb =>
    have hwait := (isWait_iff _).mpr hq
    refine someCycleDoes_response true (fun _ => hcan) hwait hb ?_
    rw [eventEffect_of_failure s hwait]
    exact ⟨rfl, rfl⟩

end Sys2Proof.Proofs
end

section
/-! PROOFS. Runs of a computation: where it ends, that it ends, and in how many edges (spec/42_sequencer.md R168, R169;
spec/70_reset_and_hazards.md R242, R244). -/

namespace Sys2Proof.Proofs

open Sys2Proof.Machine Sys2Proof.Laws

/-! ### The outcome of a computation -/

theorem ne_idle_of_progress {key msg : Words8} {s : State} (h : Progress key msg s) : s.regs.seq ≠ .idle :=
  ne_idle_of_isReq_or_isWait (isReq_or_isWait_of_progress h)

/-- The schedule that a step leaves has no reset where the schedule before it had none. -/
theorem noReset_of_step {s u : State} (h : NoReset s.env) (hstep : step s = .next u) : NoReset u.env := by
  rw [step_env s u hstep]
  exact fun c hc => h c (List.mem_of_mem_tail hc)

/-- The ends (a) and (b) of a computation: the MAC, or a hash failure (R169). -/
def HasOutcome (key msg : Words8) (u : State) : Prop :=
  (u.regs.done = true ∧ u.regs.err = false ∧ u.regs.r = macOf key msg) ∨
  (u.regs.done = false ∧ u.regs.err = true ∧ u.regs.errCode = 0x3#4)

/-- An edge without reset keeps a computation going or ends it in one of its outcomes. -/
theorem step_of_progress {key msg : Words8} {s u : State} (h : Progress key msg s)
    (hrst : (takeCycle s).1.rst = false) (hstep : step s = .next u) :
    Progress key msg u ∨ (u.regs.seq = .idle ∧ HasOutcome key msg u) := by
  rcases eachCycleKeepsAdvancesOrEndsAComputation key msg s u h hrst hstep with
    ⟨hu, -⟩ | ⟨-, hidle, hmac⟩ | ⟨-, hidle, hfailure⟩
  · exact .inl hu
  · exact .inr ⟨hidle, .inl hmac⟩
  · exact .inr ⟨hidle, .inr hfailure⟩

/-- The first idle state of a run without reset holds an outcome of the computation under way. -/
theorem hasOutcome_of_firstIdle (n : Nat) {key msg : Words8} {s u : State} (h : Progress key msg s)
    (hnr : NoReset s.env) (hrun : stepN n s = .next u) (hidle : u.regs.seq = .idle)
    (hbusy : ∀ k x, k < n → stepN k s = .next x → x.regs.seq ≠ .idle) : HasOutcome key msg u := by
  induction n generalizing s with
  | zero =>
    cases hrun
    exact absurd hidle (ne_idle_of_progress h)
  | succ n ih =>
    obtain ⟨x, hx, hrun⟩ := (stepN_succ n s u).mp hrun
    have hbusy' : ∀ k y, k < n → stepN k x = .next y → y.regs.seq ≠ .idle := fun k y hk hy =>
      hbusy (k + 1) y (by omega) ((stepN_succ k s y).mpr ⟨x, hx, hy⟩)
    rcases step_of_progress h (takeCycle_noReset s hnr) hx with hprogress | ⟨hxidle, houtcome⟩
    · exact ih hprogress (noReset_of_step hnr hx) hrun hbusy'
    · cases n with
      | zero =>
        cases hrun
        exact houtcome
      | succ n => exact absurd hxidle (hbusy' 0 x (by omega) rfl)

/-- START alone, written to an idle CORE, runs START_ACTION in the bus part of its cycle (R101). -/
theorem cycleRegs_of_start {c : ClockCycle} {x : Regs} {t : BusWord} {v : Word} (hreq : c.req = some t)
    (hdec : decodeBus t = .wrCtrl v) (hstart : startBit v = true) (hclear : clearBit v = false)
    (hq : x.seq = .idle) : cycleRegs c x = startAction x := by
  have hidle : x.busy = false := (not_busy_iff x).mpr hq
  simp [cycleRegs, hreq, hdec, busRegs, hidle, hstart, hclear]

/-- An accepted START on an idle CORE puts a computation on KEY and MSG at its first stage (R102). -/
theorem progress_of_startAction {s u : State} (hk : s.regs.kwm = 0xFF#8) (hm : s.regs.mwm = 0xFF#8)
    (hnone : s.hp = none) (hregs : u.regs = startAction s.regs) (hhp : u.hp = s.hp) :
    Progress s.regs.key s.regs.msg u := by
  rcases startAction_cases s.regs with ⟨hk', -⟩ | ⟨-, hm', -⟩ | ⟨-, -, h⟩
  · exact absurd hk hk'
  · exact absurd hm hm'
  · rw [Progress, hregs, h, hhp]
    exact ⟨rfl, rfl, rfl, rfl, .inl ⟨rfl, hnone⟩⟩

/-- Settles O45: the START cycle puts the computation at its first stage, and the run after it ends in an outcome. -/
theorem completedComputationHoldsTheMac : Obligations.CompletedComputationHoldsTheMac := by
  intro n s u c rest t v henv hrst hreq hdec hstart hclear hq hk hm hnone hnr hrun hidle hbusy
  obtain ⟨x, hx, hrun⟩ := (stepN_succ n s u).mp hrun
  have hc : (takeCycle s).1 = c := by simp [takeCycle, henv]
  have hprogress : Progress s.regs.key s.regs.msg x := by
    rcases step_cases hx with ⟨hr, -⟩ | ⟨-, -, hregs, hhp⟩ | ⟨-, hne, -⟩
    · simp [hc, hrst] at hr
    · rw [hc, cycleRegs_of_start hreq hdec hstart hclear hq] at hregs
      exact progress_of_startAction hk hm hnone hregs hhp
    · exact absurd hq hne
  have hxenv : x.env = rest := by simp [step_env s x hx, henv]
  exact hasOutcome_of_firstIdle n hprogress (hxenv ▸ hnr) hrun hidle fun k y hlt hy =>
    hbusy k y hlt ((stepN_succ k s y).mpr ⟨x, hx, hy⟩)

/-! ### Every computation ends -/

/-- How many transitions a computation still has before it, from each state of SEQ, if no response fails. -/
def stagesLeft : SeqState → Nat
  | .innerReq => 4
  | .innerWait => 3
  | .outerReq => 2
  | .outerWait => 1
  | .idle | .unused5 | .unused6 | .unused7 => 0

theorem stagesLeft_le (q : SeqState) : stagesLeft q ≤ 4 := by
  cases q <;> simp [stagesLeft]

/-- No event puts a computation back. -/
theorem stagesLeft_nextSeq_le (hs he : Bool) (q : SeqState) : stagesLeft (nextSeq hs he q) ≤ stagesLeft q := by
  cases q <;> cases hs <;> cases he <;> simp [stagesLeft, nextSeq]

/-- An acceptance or a response takes a computation on. -/
theorem stagesLeft_nextSeq_lt (he : Bool) {q : SeqState} (hq : q.isReq = true ∨ q.isWait = true) :
    stagesLeft (nextSeq true he q) < stagesLeft q := by
  rw [isReq_iff, isWait_iff] at hq
  rcases hq with (rfl | rfl) | (rfl | rfl) <;> cases he <;> simp [stagesLeft, nextSeq]

/-- After the schedule the primitive accepts and responds at once (R244, log 2). -/
theorem eventHs_quietCycle (n : Nat) {s : State} (hb : s.hp.isSome = s.regs.seq.isWait)
    (hq : s.regs.seq.isReq = true ∨ s.regs.seq.isWait = true) : eventHs (quietCycle n) s = true := by
  rcases hq with hq | hq
  · have h : eventHs (quietCycle n) s = eventHs acceptCycle s := by
      simp [eventHs_of_isReq _ hq, quietCycle, acceptCycle]
    exact h.trans (eventHs_acceptCycle s hb hq)
  · exact eventHs_of_respond _ s rfl hb hq

/-- Each edge without reset of a computation uses a cycle of the schedule or, after the schedule, takes the computation
on; no edge puts it back. -/
theorem step_decreases {s u : State} (h : s.Inv) (hq : s.regs.seq ≠ .idle) (hnr : NoReset s.env)
    (hstep : step s = .next u) :
    u.env.length + stagesLeft u.regs.seq < s.env.length + stagesLeft s.regs.seq := by
  obtain ⟨x, hregs, -, hu⟩ := step_of_busy hq (takeCycle_noReset s hnr) hstep
  have hseq : u.regs.seq = nextSeq (eventHs (takeCycle s).1 s) (eventHe Config.hashCanFail (takeCycle s).1 s)
      s.regs.seq := by
    rw [hu, eventEffect_seq, hregs]
  rw [step_env s u hstep, hseq]
  cases henv : s.env with
  | nil =>
    have hb : s.hp.isSome = s.regs.seq.isWait := by rw [Bool.eq_iff_iff, h.inFlightIffWait, isWait_iff]
    have hused := (idle_or_isReq_or_isWait_of_used h.seqIsUsed).resolve_left hq
    have hs : eventHs (takeCycle s).1 s = true := by
      simpa [takeCycle, henv] using eventHs_quietCycle s.draws hb hused
    simpa [hs] using stagesLeft_nextSeq_lt _ hused
  | cons c rest =>
    have hle := stagesLeft_nextSeq_le (eventHs (takeCycle s).1 s)
      (eventHe Config.hashCanFail (takeCycle s).1 s) s.regs.seq
    simp only [List.tail_cons, List.length_cons]
    omega

/-- The cycles of the schedule and the transitions left bound the cycles until CORE is idle. -/
theorem idle_reached (n : Nat) {s : State} (h : s.Inv) (hnr : NoReset s.env)
    (hn : s.env.length + stagesLeft s.regs.seq ≤ n) :
    ∃ k u, k ≤ n ∧ stepN k s = .next u ∧ u.regs.seq = .idle := by
  induction n generalizing s with
  | zero =>
    refine ⟨0, s, le_rfl, rfl, ?_⟩
    rcases h.seqIsUsed with hq | hq | hq | hq | hq
    case inl => exact hq
    all_goals simp [hq, stagesLeft] at hn
  | succ n ih =>
    by_cases hq : s.regs.seq = .idle
    · exact ⟨0, s, by omega, rfl, hq⟩
    · obtain ⟨x, hx⟩ := clockEdge_answers Config.hashCanFail s
      have hlt := step_decreases h hq hnr hx
      obtain ⟨k, u, hk, hrun, hidle⟩ := ih (everyStepKeepsTheInvariants s x h hx) (noReset_of_step hnr hx) (by omega)
      exact ⟨k + 1, u, by omega, (stepN_succ k s u).mpr ⟨x, hx, hrun⟩, hidle⟩

/-- Settles O46: a computation has at most four transitions before it. -/
theorem everyComputationEnds : Obligations.EveryComputationEnds := by
  intro s h _ hnr
  exact idle_reached _ h hnr (Nat.add_le_add_left (stagesLeft_le _) _)

/-! ### The nominal number of edges -/

/-- A run of `n` cycles from `s` to `u` whose states before `u` are busy. -/
def BusyRun (n : Nat) (s u : State) : Prop :=
  stepN n s = .next u ∧ ∀ k, k < n → ∃ x, stepN k s = .next x ∧ x.regs.seq ≠ .idle

theorem busyRun_zero (s : State) : BusyRun 0 s s := ⟨rfl, fun _ hk => absurd hk (Nat.not_lt_zero _)⟩

theorem busyRun_of_step {s u : State} (hq : s.regs.seq ≠ .idle) (h : step s = .next u) : BusyRun 1 s u := by
  refine ⟨(stepN_succ 0 s u).mpr ⟨u, h, rfl⟩, fun k hk => ⟨s, ?_, hq⟩⟩
  rw [Nat.lt_one_iff.mp hk]
  rfl

theorem busyRun_add {m n : Nat} {s x u : State} (h : BusyRun m s x) (h' : BusyRun n x u) : BusyRun (m + n) s u := by
  obtain ⟨hrun, hbusy⟩ := h
  obtain ⟨hrun', hbusy'⟩ := h'
  refine ⟨(stepN_add m n s x hrun).trans hrun', fun k hk => ?_⟩
  by_cases hm : k < m
  · exact hbusy k hm
  · obtain ⟨j, rfl⟩ := Nat.exists_eq_add_of_le (Nat.le_of_not_lt hm)
    rw [stepN_add m j s x hrun]
    exact hbusy' j (by omega)

/-- A busy CORE's edge whose pins the schedule gives: the event alone, on a state that differs from `s` outside CORE and
the block in flight only. -/
theorem step_of_busy_cons {s : State} {c : ClockCycle} {rest : List ClockCycle} (henv : s.env = c :: rest)
    (hrst : c.rst = false) (hq : s.regs.seq ≠ .idle) :
    ∃ x : State, x.regs = s.regs ∧ x.hp = s.hp ∧ x.env = rest ∧
      step s = .next (eventEffect (eventHs c s) (eventHe Config.hashCanFail c s) x) := by
  refine ⟨{ s with env := rest, rsp := cycleRsp c s.regs }, rfl, rfl, rfl, ?_⟩
  rw [step, clockEdge_cons _ s c rest henv, hrst, if_neg Bool.false_ne_true, if_neg hq]

/-- Cycles in which the primitive does nothing leave a REQ or WAIT state as it is. -/
theorem busyRun_wait (w : Nat) {s : State} {rest : List ClockCycle}
    (hq : s.regs.seq.isReq = true ∨ s.regs.seq.isWait = true)
    (henv : s.env = List.replicate w waitCycle ++ rest) :
    ∃ u, BusyRun w s u ∧ u.regs = s.regs ∧ u.hp = s.hp ∧ u.env = rest := by
  induction w generalizing s with
  | zero => exact ⟨s, busyRun_zero s, rfl, rfl, henv⟩
  | succ w ih =>
    have hbusy := ne_idle_of_isReq_or_isWait hq
    obtain ⟨x, hregs, hhp, hxenv, hstep⟩ := step_of_busy_cons (c := waitCycle) henv rfl hbusy
    rw [← hregs] at hq
    rw [eventHs_waitCycle, eventEffect_hold _ x hq] at hstep
    obtain ⟨u, hrun, huregs, huhp, huenv⟩ := ih hq hxenv
    refine ⟨u, ?_, huregs.trans hregs, huhp.trans hhp, huenv⟩
    rw [Nat.add_comm]
    exact busyRun_add (busyRun_of_step hbusy hstep) hrun

/-- A block is in flight exactly in the WAIT stages of a computation. -/
theorem hp_isSome_of_progress {key msg : Words8} {s : State} (h : Progress key msg s) :
    s.hp.isSome = s.regs.seq.isWait := by
  obtain ⟨-, -, -, -, ⟨hq, hhp⟩ | ⟨hq, hhp⟩ | ⟨hq, hhp, -⟩ | ⟨hq, hhp, -⟩⟩ := h <;> simp [hq, hhp, SeqState.isWait]

/-- The cycle of acceptance takes a computation from a REQ state to the WAIT state of the phase. -/
theorem busyRun_accept {key msg : Words8} {s : State} {rest : List ClockCycle} (h : Progress key msg s)
    (hq : s.regs.seq.isReq = true) (henv : s.env = acceptCycle :: rest) :
    ∃ u, BusyRun 1 s u ∧ Progress key msg u ∧ u.regs.seq = nextSeq true false s.regs.seq ∧ u.env = rest := by
  have hbusy := ne_idle_of_progress h
  obtain ⟨x, hregs, hhp, hxenv, hstep⟩ := step_of_busy_cons henv rfl hbusy
  have he : eventHe Config.hashCanFail acceptCycle s = false := by
    simp [eventHe, responseErr, acceptCycle, waitCycle]
  rw [eventHs_acceptCycle s (hp_isSome_of_progress h) hq, he] at hstep
  obtain ⟨hprogress, -⟩ := progress_of_issue false (progress_congr hregs hhp h) (hregs ▸ hq)
  exact ⟨_, busyRun_of_step hbusy hstep, hprogress, by rw [eventEffect_seq, hregs], by rw [eventEffect_env, hxenv]⟩

/-- The cycle of a response without an error takes a computation from a WAIT state to OUTER_REQ or to its end. -/
theorem busyRun_respond {key msg : Words8} {s : State} {rest : List ClockCycle} (h : Progress key msg s)
    (hq : s.regs.seq.isWait = true) (henv : s.env = respondCycle :: rest) :
    ∃ u, BusyRun 1 s u ∧ (Progress key msg u ∨ EndsWithMac key msg s u) ∧
      u.regs.seq = nextSeq true false s.regs.seq ∧ u.env = rest := by
  have hbusy := ne_idle_of_progress h
  obtain ⟨x, hregs, hhp, hxenv, hstep⟩ := step_of_busy_cons henv rfl hbusy
  rw [eventHs_of_respond respondCycle s rfl (hp_isSome_of_progress h) hq, eventHe_respondCycle s hq] at hstep
  have hcapture := progress_of_capture (progress_congr hregs hhp h) (hregs ▸ hq)
  refine ⟨_, busyRun_of_step hbusy hstep, ?_, by rw [eventEffect_seq, hregs], by rw [eventEffect_env, hxenv]⟩
  rw [EndsWithMac, ← hregs]
  exact hcapture.imp_left And.left

/-- A hash call of `w` and `l` that does not fail takes a computation, in `(w + 1) + l` edges, from a REQ state through
a WAIT state `v` to OUTER_REQ or to its end (R242). -/
theorem busyRun_hashCall {key msg : Words8} {s : State} (w l : Nat) {rest : List ClockCycle} (hl : 1 ≤ l)
    (h : Progress key msg s) (hq : s.regs.seq.isReq = true) (henv : s.env = hashCall w l ++ rest) :
    ∃ v u, BusyRun (w + 1 + l) s u ∧ (Progress key msg u ∨ EndsWithMac key msg v u) ∧
      v.regs.seq = nextSeq true false s.regs.seq ∧ u.regs.seq = nextSeq true false v.regs.seq ∧ u.env = rest := by
  simp only [hashCall, List.append_assoc, List.singleton_append] at henv
  obtain ⟨a, harun, haregs, hahp, haenv⟩ := busyRun_wait w (.inl hq) henv
  obtain ⟨b, hbrun, hb, hbseq, hbenv⟩ := busyRun_accept (progress_congr haregs hahp h) (haregs ▸ hq) haenv
  have hbwait : b.regs.seq.isWait = true := by
    rw [hbseq, haregs]
    rcases (isReq_iff _).mp hq with hseq | hseq <;> rw [hseq] <;> rfl
  obtain ⟨v, hvrun, hvregs, hvhp, hvenv⟩ := busyRun_wait (l - 1) (.inr hbwait) hbenv
  obtain ⟨u, hurun, hu, huseq, huenv⟩ := busyRun_respond (progress_congr hvregs hvhp hb) (hvregs ▸ hbwait) hvenv
  have hrun := busyRun_add (busyRun_add (busyRun_add harun hbrun) hvrun) hurun
  rw [show w + 1 + (l - 1) + 1 = w + 1 + l by omega] at hrun
  exact ⟨v, u, hrun, hu, by rw [hvregs, hbseq, haregs], huseq, huenv⟩

/-- Settles O47: the inner hash call leads from INNER_REQ to OUTER_REQ, and the outer one on to the end. -/
theorem computationTakesTheNominalNumberOfEdges : Obligations.ComputationTakesTheNominalNumberOfEdges := by
  intro w1 l1 w2 l2 s rest hl1 hl2 h hq henv
  rw [List.append_assoc] at henv
  obtain ⟨v, x, hrun1, hx, hv, hxseq, hxenv⟩ := busyRun_hashCall w1 l1 hl1 h (by rw [hq]; rfl) henv
  rw [hq] at hv
  rw [hv] at hxseq
  have hprogress := hx.resolve_right fun ⟨hend, _⟩ => by simp [hv, nextSeq] at hend
  obtain ⟨y, u, hrun2, hu, hy, huseq, -⟩ := busyRun_hashCall w2 l2 hl2 hprogress (by rw [hxseq]; rfl) hxenv
  rw [hxseq] at hy
  rw [hy] at huseq
  obtain ⟨-, hidle, hdone, -, hmac⟩ := hu.resolve_left fun hp => ne_idle_of_progress hp huseq
  obtain ⟨hrun, hbusy⟩ := busyRun_add hrun1 hrun2
  rw [← Nat.add_assoc, ← Nat.add_assoc] at hrun hbusy
  exact ⟨⟨u, hrun, hidle, hdone, hmac⟩, hbusy⟩

end Sys2Proof.Proofs
end

section
/-! PROOFS. The MAC behind the result mux: when R and DONE change, and how long a shown MAC stays shown
(spec/43_result_mux.md R183, R184; spec/70_reset_and_hazards.md R239). -/

namespace Sys2Proof.Proofs

open Sys2Proof.Machine Sys2Proof.Laws

/-! ### What a transaction does to R and DONE -/

/-- What the bus part of a cycle leaves in R and DONE: CLEAR on an idle CORE hides and overwrites the MAC, START hides
it, and anything else keeps both (R102, R103). -/
theorem cycleRegs_mac_cases (c : ClockCycle) (x : Regs) :
    (∃ t v, c.req = some t ∧ decodeBus t = .wrCtrl v ∧ clearBit v = true ∧ x.seq = .idle ∧
      (cycleRegs c x).done = false) ∨
    (∃ t v, c.req = some t ∧ decodeBus t = .wrCtrl v ∧ startBit v = true ∧
      (cycleRegs c x).r = x.r ∧ (cycleRegs c x).done = false) ∨
    ((cycleRegs c x).r = x.r ∧ (cycleRegs c x).done = x.done) := by
  rcases cycleRegs_cases c x with
    e | ⟨hq, t, ht, ⟨k, v, -, e⟩ | ⟨k, v, -, e⟩ | ⟨v, hd, hv, e⟩ | ⟨v, hd, -, hv, e⟩⟩ <;> rw [e]
  case inr.inr.inr.inl => exact .inl ⟨t, v, ht, hd, hv, hq, rfl⟩
  case inr.inr.inr.inr =>
    obtain ⟨-, -, -, hr, -, -⟩ := startAction_frame x
    exact .inr (.inl ⟨t, v, ht, hd, hv, hr, startAction_done x⟩)
  all_goals exact .inr (.inr ⟨rfl, rfl⟩)

/-! ### What an event does to R and DONE -/

/-- An event that changes R or DONE is SEQ_CAPTURE_OUTER, a response without an error in OUTER_WAIT (R164). -/
theorem capturesOuter_of_change (hs he : Bool) (s : State)
    (h : (eventEffect hs he s).regs.r ≠ s.regs.r ∨ (eventEffect hs he s).regs.done ≠ s.regs.done) :
    decodeEvent s.regs.seq.code hs he = .seqCaptureOuter := by
  cases hq : s.regs.seq <;> cases hs <;> cases he
  case outerWait.true.false => rfl
  all_goals simp [eventEffect, hq] at h

/-- Settles O38: an idle CORE changes R and DONE by a command only; a busy CORE has DONE = 0, and its event is the outer
capture or keeps both. -/
theorem macChangesOnlyAtCaptureClearAndReset : Obligations.MacChangesOnlyAtCaptureClearAndReset := by
  intro s u hinv h
  rcases step_cases h with ⟨hrst, hregs, -⟩ | ⟨-, -, hregs, -⟩ | ⟨-, hq, x, hregs, -, rfl⟩
  · have hdone : u.regs.done = false := by rw [hregs]; rfl
    simp [hrst, hdone]
  · rw [hregs]
    rcases cycleRegs_mac_cases (takeCycle s).1 s.regs with
      ⟨t, v, ht, hd, hv, hq, hdone⟩ | ⟨t, v, ht, hd, hv, hr, hdone⟩ | ⟨hr, hdone⟩ <;> rw [hdone]
    · exact ⟨fun _ => .inr (.inr ⟨t, v, ht, hd, hv, hq⟩), by simp, fun _ _ => .inr ⟨t, v, ht, hd, .inr hv⟩, by simp⟩
    · exact ⟨absurd hr, by simp, fun _ _ => .inr ⟨t, v, ht, hd, .inl hv⟩, by simp⟩
    · exact ⟨absurd hr, fun h0 h1 => by simp [h0] at h1, fun h1 h0 => by simp [h1] at h0, fun _ _ => hr⟩
  · have hcapture := capturesOuter_of_change (eventHs (takeCycle s).1 s)
      (eventHe Config.hashCanFail (takeCycle s).1 s) x
    have hdone := (cleanAndComplete_of_inv hinv hq).done
    rw [hregs, ← decodeSeq_eventWord] at hcapture
    exact ⟨fun hr => .inr (.inl (hcapture (.inl hr))),
      fun _ h1 => hcapture (.inr (by simp [h1, hdone])),
      fun h1 => absurd h1 (by simp [hdone]),
      fun h1 => absurd h1 (by simp [hdone])⟩

/-! ### A shown MAC stays shown -/

/-- The pins of a cycle that takes no shown MAC away: neither reset nor START nor CLEAR. -/
def KeepsShownMac (c : ClockCycle) : Prop := c.rst = false ∧ ¬c.commands

/-- A cycle without a transaction gives no command. -/
theorem not_commands_of_noTransaction {c : ClockCycle} (h : c.req = none) : ¬c.commands := by
  rintro ⟨t, -, ht, -⟩
  simp [h] at ht

/-- The next cycle is the first one of the schedule, or a quiet one after it. -/
theorem takeCycle_keepsShownMac {n : Nat} {s : State} (h : ∀ c ∈ s.env.take (n + 1), KeepsShownMac c) :
    KeepsShownMac (takeCycle s).1 := by
  unfold takeCycle
  split
  · exact ⟨rfl, not_commands_of_noTransaction rfl⟩
  · next c rest henv => exact h c (by simp [henv])

/-- One step of R184 and R239: only reset and the commands hide a shown MAC, and none changes while it stays shown
(R183). -/
theorem step_keeps_shownMac {s u : State} (hinv : s.Inv) (hdone : s.regs.done = true)
    (hc : KeepsShownMac (takeCycle s).1) (h : step s = .next u) : u.regs.done = true ∧ u.regs.r = s.regs.r := by
  obtain ⟨-, -, hfalls, hconst⟩ := macChangesOnlyAtCaptureClearAndReset s u hinv h
  obtain ⟨hrst, hcommands⟩ := hc
  have hu : u.regs.done = true := by
    refine (Bool.eq_false_or_eq_true _).resolve_right fun h0 => ?_
    rcases hfalls hdone h0 with hr | ⟨t, v, ht, hd, hv⟩
    · simp [hrst] at hr
    · exact hcommands ⟨t, v, ht, hd, by rw [isCommand, Bool.or_eq_true]; exact hv.symm⟩
  exact ⟨hu, hconst hdone hu⟩

/-- A shown MAC stays shown through `n` cycles without reset, START and CLEAR. -/
theorem stepN_keeps_shownMac (n : Nat) {s u : State} (hinv : s.Inv) (hdone : s.regs.done = true)
    (hcs : ∀ c ∈ s.env.take n, KeepsShownMac c) (h : stepN n s = .next u) :
    u.regs.done = true ∧ u.regs.r = s.regs.r := by
  induction n generalizing s with
  | zero =>
    cases h
    exact ⟨hdone, rfl⟩
  | succ n ih =>
    obtain ⟨x, hx, hrun⟩ := (stepN_succ n s u).mp h
    obtain ⟨hxdone, hxr⟩ := step_keeps_shownMac hinv hdone (takeCycle_keepsShownMac hcs) hx
    have hxcs : ∀ c ∈ x.env.take n, KeepsShownMac c := by
      intro c hc
      have htail : x.env.take n = (s.env.take (n + 1)).tail := by
        rw [List.tail_take_eq_take_tail, step_env s x hx, Nat.add_sub_cancel]
      exact hcs c (List.mem_of_mem_tail (htail ▸ hc))
    obtain ⟨hudone, hur⟩ := ih (everyStepKeepsTheInvariants s x hinv hx) hxdone hxcs hrun
    exact ⟨hudone, hur.trans hxr⟩

/-- Settles O48: the run keeps DONE and R, and with DONE = 1 a RESULT read answers the words of R. -/
theorem shownMacStaysUntilACommandOrReset : Obligations.ShownMacStaysUntilACommandOrReset := by
  intro n s u hinv hdone hcs h
  obtain ⟨hudone, hr⟩ := stepN_keeps_shownMac n hinv hdone hcs h
  refine ⟨hudone, hr, fun i => ?_⟩
  obtain ⟨-, -, -, hread, -⟩ := readsOfMessageAndResult u i
  rw [hread hudone, hr]

end Sys2Proof.Proofs
end

section
/-! PROOFS. The two error channels: CORE has no traps, what a refused transaction leaves unchanged, and the causes of a
bus error (spec/60_exceptions.md R200 to R202). -/

namespace Sys2Proof.Proofs

open Sys2Proof.Machine Sys2Proof.Laws

/-! ### No traps -/

/-- Settles O7. -/
theorem nothingStopsTheMachine : Obligations.NothingStopsTheMachine :=
  ⟨clockEdge_answers Config.hashCanFail, exec_answers⟩

/-! ### What a refused transaction leaves unchanged -/

/-- Only reads answer data, and no read is refused (R201, R202). -/
theorem busRsp_rdata_of_err {i : Instr} {x : Regs} (h : (busRsp i x).err = true) : (busRsp i x).rdata = 0#32 := by
  cases i
  case rdStatus | rdWmask | rdIpad | rdOpad | rdMsg | rdResult => cases h
  all_goals rfl

/-- An operation that writes CORE finds it idle, and an idle CORE refuses neither a command nor a KEY or MSG write. -/
theorem busRegs_of_err {i : Instr} {x : Regs} (h : (busRsp i x).err = true) : busRegs i x = x := by
  rcases busRegs_cases i x with hx | ⟨hq, hi⟩
  · exact hx
  · have hidle : x.busy = false := (not_busy_iff x).mpr hq
    rcases hi with ⟨k, v, rfl, -⟩ | ⟨k, v, rfl, -⟩ | ⟨v, rfl, -⟩ | ⟨v, rfl, -⟩ <;> simp [busRsp, hidle] at h

/-- Settles O21, by the two lemmas above on the effect that `exec_bus` gives. -/
theorem busErrorsChangeNothing : Obligations.BusErrorsChangeNothing := by
  intro t s u a hexec hrsp herr
  rw [exec_bus _ s (decodeBus_isBus t)] at hexec
  cases hexec
  cases hrsp
  exact ⟨busRsp_rdata_of_err herr, by rw [busRegs_of_err herr]⟩

/-! ### The causes of a bus error -/

/-- The reserved offsets (spec/20_memory.md R51). -/
def IsReservedOffset (a : Offset) : Prop := a = 0x14#8 ∨ a = 0x18#8 ∨ a = 0x1C#8 ∨ 0x80 ≤ a.toNat

/-- The offset is misaligned or reserved. -/
def HasNoRegister (a : Offset) : Prop := a.extractLsb' 0 2 ≠ 0b00#2 ∨ IsReservedOffset a

/-- The offsets of STATUS, WMASK, IPAD and OPAD, and of the RESULT window (spec/20_memory.md R51). -/
def IsReadOnlyOffset (a : Offset) : Prop :=
  a = 0x04#8 ∨ a = 0x08#8 ∨ a = 0x0C#8 ∨ a = 0x10#8 ∨ (0x60 ≤ a.toNat ∧ a.toNat < 0x80)

/-- The causes of R201 that make a defined register refuse a write: a read-only register, a busy CORE's KEY or MSG, and
a command to a busy CORE. -/
def RefusesWrite (a : Offset) (d : Word) (x : Regs) : Prop :=
  IsReadOnlyOffset a ∨
  (x.seq ≠ .idle ∧ 0x20 ≤ a.toNat ∧ a.toNat < 0x60) ∨
  (x.seq ≠ .idle ∧ a = 0x00#8 ∧ (d.getLsbD 0 = true ∨ d.getLsbD 1 = true))

/-- An offset that is neither misaligned nor reserved is that of a single register or of a word of a window (R51). -/
theorem register_of_offset (a : Offset) (h : ¬HasNoRegister a) :
    a = 0x00#8 ∨ a = 0x04#8 ∨ a = 0x08#8 ∨ a = 0x0C#8 ∨ a = 0x10#8 ∨ (∃ i, a = keyOffset i) ∨
    (∃ i, a = msgOffset i) ∨ (∃ i, a = resultOffset i) := by
  unfold HasNoRegister IsReservedOffset at h
  revert a; decide

theorem busRsp_err_of_hasNoRegister {a : Offset} (h : HasNoRegister a) (wr : Bool) (d : Word) (x : Regs) :
    (busRsp (decodeFields wr a d) x).err = true := by
  rcases row_of_offset_without_register a h with h | h | rfl | h | h
  · rw [decodeFields_of_misalignedA h]; rfl
  · rw [decodeFields_of_misalignedB h]; rfl
  · rfl
  · rw [decodeFields_of_reservedB h]; rfl
  · rw [decodeFields_of_reservedC h]; rfl

/-- No read of a defined register raises a bus error (R201). -/
theorem busRsp_err_read {a : Offset} (h : ¬HasNoRegister a) (d : Word) (x : Regs) :
    (busRsp (decodeFields false a d) x).err = false := by
  rcases register_of_offset a h with rfl | rfl | rfl | rfl | rfl | ⟨i, rfl⟩ | ⟨i, rfl⟩ | ⟨i, rfl⟩
  case inr.inr.inr.inr.inr.inl => rw [decodeFields_key]; rfl
  case inr.inr.inr.inr.inr.inr.inl => rw [decodeFields_msg]; rfl
  case inr.inr.inr.inr.inr.inr.inr => rw [decodeFields_result]; rfl
  all_goals rfl

/-- In the KEY and MSG windows only BUSY refuses a write. -/
theorem refusesWrite_inputWindow {a : Offset} (h : 0x20 ≤ a.toNat ∧ a.toNat < 0x60) (d : Word) (x : Regs) :
    RefusesWrite a d x ↔ x.seq ≠ .idle := by
  have hreadOnly : ¬IsReadOnlyOffset a := by
    unfold IsReadOnlyOffset
    revert a; decide
  have hctrl : a ≠ 0x00#8 := by
    rintro rfl
    simp at h
  simp [RefusesWrite, hreadOnly, hctrl, h]

theorem resultOffset_isReadOnly (i : Index) : IsReadOnlyOffset (resultOffset i) := by
  unfold IsReadOnlyOffset
  revert i; decide

/-- A defined register refuses a write exactly for the causes of `RefusesWrite`. -/
theorem busRsp_err_write {a : Offset} (h : ¬HasNoRegister a) (d : Word) (x : Regs) :
    (busRsp (decodeFields true a d) x).err = true ↔ RefusesWrite a d x := by
  rcases register_of_offset a h with rfl | rfl | rfl | rfl | rfl | ⟨i, rfl⟩ | ⟨i, rfl⟩ | ⟨i, rfl⟩
  case inl =>
    simp [busRsp, busy_iff, isCommand, clearBit, startBit, RefusesWrite, IsReadOnlyOffset, or_comm]
  case inr.inr.inr.inr.inr.inl =>
    rw [refusesWrite_inputWindow (by rw [keyOffset_toNat]; omega), decodeFields_key, ← busy_iff]
    rfl
  case inr.inr.inr.inr.inr.inr.inl =>
    rw [refusesWrite_inputWindow (by rw [msgOffset_toNat]; omega), decodeFields_msg, ← busy_iff]
    rfl
  case inr.inr.inr.inr.inr.inr.inr =>
    rw [decodeFields_result]
    exact iff_of_true rfl (.inl (resultOffset_isReadOnly i))
  all_goals exact iff_of_true rfl (.inl (by simp [IsReadOnlyOffset]))

/-- Causes (2) to (6) of R201 are those of the transaction's response. -/
theorem busRsp_err_iff (t : BusWord) (x : Regs) :
    (busRsp (decodeBus t) x).err = true ↔
      HasNoRegister (busAddr t) ∨ (busWr t = true ∧ RefusesWrite (busAddr t) (busData t) x) := by
  rw [decodeBus]
  by_cases h : HasNoRegister (busAddr t)
  · simp [h, busRsp_err_of_hasNoRegister h]
  · cases hwr : busWr t
    · simp [h, busRsp_err_read h]
    · simp [h, busRsp_err_write h]

/-- Settles O22: in a reset cycle the response is (0, 1), and in another it is the transaction's. -/
theorem busErrorsHaveExactlyTheListedCauses : Obligations.BusErrorsHaveExactlyTheListedCauses := by
  intro s c rest t henv hreq
  obtain ⟨u, hu⟩ := clockEdge_answers Config.hashCanFail s
  have hrsp := clockEdge_rsp _ _ _ hu
  have hcycle : (takeCycle s).1 = c := by simp [takeCycle, henv]
  rw [hcycle] at hrsp
  cases hrst : c.rst
  case true =>
    exact ⟨u, ⟨0#32, true⟩, hu, by simp [hrsp, hrst, resetResponse, hreq], by simp⟩
  case false =>
    refine ⟨u, busRsp (decodeBus t) s.regs, hu, by simp [hrsp, hrst, cycleRsp, hreq], ?_⟩
    rw [busRsp_err_iff]
    simp only [HasNoRegister, IsReservedOffset, RefusesWrite, IsReadOnlyOffset, and_or_left, or_assoc,
      Bool.false_eq_true, false_or]

end Sys2Proof.Proofs
end
